-- ==== Sys2Proof/Word.lean ====
section
/-! DEFINITION. The word types of the model and their plainest readings.

Register contents and memory cells are bit vectors. Addresses, counts, ticks and indexes are natural
numbers, because the spec adds and compares them and never wraps them silently (R22, R413). -/

namespace Sys2Proof

/-- One byte of memory or of a packet. -/
abbrev Byte := BitVec 8

/-- A 64-bit register, sync word or record word (R4, R387). -/
abbrev Word := BitVec 64

/-- A 32-bit word: an FP32 or S32 pattern, a half of a register (R391). -/
abbrev HalfWord := BitVec 32

/-- The signed value of a 64-bit word (R179: sync words are compared as signed integers, R89). -/
def Word.signed (w : Word) : Int := w.toInt

/-- A word from a natural number, modulo 2^64. -/
def word (n : Nat) : Word := BitVec.ofNat 64 n

end Sys2Proof
end

