-- ==== Sys2Proof/Syntax.lean ====
section
/-! DEFINITION. The commands of the block: one constructor per row of the table of operations and
events, with the operands each row takes. What reaches the device from the physical world (an error
that a memory read finds, a sensor reading, a lane that fails) stands in the operands, because no rule
lets the device choose it. -/

namespace Sys2Proof

/-- The register pages (R408) and the core control pages (R17). -/
inductive PageId where
  | core (c : Nat)
  | chip | evt | gov | slu | sec | pres | knot | dist | fab | eth | roce
  | fport (p : Nat)
  | stk (k : Nat)
  | msc (k : Nat)
  | spl (k : Nat)
deriving DecidableEq, Repr

/-- Who issues an access or a command (R26, R28, R393, R459). -/
inductive Issuer where
  /-- The steward of core c. -/
  | steward (c : Nat)
  /-- Warden w. -/
  | warden (w : Nat)
  /-- The host, over RoCE queue pair qp. -/
  | host (qp : Nat)
  /-- The host, over TMP, from a source address and port. -/
  | tmp (ip port : Nat)
  /-- A remote device, whose request came in at a fabric port. -/
  | device (d port : Nat)
  /-- The matrix arrays, running the record with this tag. -/
  | arrays (c tag : Nat)
  /-- The side path. -/
  | side (c tag : Nat)
  /-- The vector engine. -/
  | vector (c tag : Nat)
  /-- Context n of the strand engine. -/
  | strand (c n tag : Nat)
  /-- The splice unit of stack k, for a tag. -/
  | splice (k tag : Nat)
  /-- The splice unit's auxiliary commands. -/
  | aux (k : Nat)
  /-- The send engine of stack k. -/
  | sender (k : Nat)
  /-- The knot table. -/
  | knot
  /-- The fan-out unit. -/
  | fanout
deriving DecidableEq, Repr

/-- Access classes of the memory-side cache (R265). -/
inductive MemClass where
  | ordinary | stream | keep | last
deriving DecidableEq, Repr

/-- Whose write a pending acknowledgement belongs to (R32, R312). -/
inductive Owner where
  /-- Executor e of core c: 0 arrays, 1 side path, 2 vector engine. -/
  | engine (c e : Nat)
  /-- Request j of context n of the strand engine of core c. -/
  | strand (c n j : Nat)
  /-- Splice tag t of stack k. -/
  | tag (k t : Nat)
  /-- The send engine of stack k. -/
  | sender (k : Nat)
  /-- The auxiliary commands of stack k. -/
  | aux (k : Nat)
  /-- The fan-out unit. -/
  | fanout
  /-- A fan-out write forwarded for another device, by its number. -/
  | relay (id : Nat)
  /-- An answer that waits for mirrored copies, by its number. -/
  | answer (id : Nat)
  /-- A RoCE message of a queue pair. -/
  | roce (qp : Nat)
  /-- Nobody waits. -/
  | nobody
deriving DecidableEq, Repr

/-- What happens when an access is answered. -/
inductive Cont where
  /-- The answer concerns nobody. -/
  | none
  /-- A steward's load, LR or AMO: the low `size` bytes, sign-extended or not, go to x[rd]. -/
  | toReg (c rd size : Nat) (signed : Bool)
  /-- A steward's store. -/
  | stored (c : Nat)
  /-- A steward's SC: x[rd] receives 0 or 1. -/
  | scDone (c rd : Nat)
  /-- A line for a steward's instruction cache. -/
  | fetched (c line : Nat)
  /-- A fabric request of operation opc is answered with a RESPONSE (R304), which carries the request's
  t_dry (R296). -/
  | respond (opc dst reqId : Nat) (ordered : Bool) (tdry : Option Int)
  /-- A RoCE write, read or atomic of a queue pair is answered (R372). -/
  | roce (qp psn kind : Nat)
  /-- One entry of TMP message `id` is answered (R379). -/
  | tmpEntry (id : Nat)
  /-- A write of this owner is acknowledged (R32). -/
  | ack (o : Owner)
  /-- The copy of a write in mirror region m is answered; the write belongs to this owner (R312). -/
  | mirrored (m : Nat) (o : Owner)
  /-- A completion signal: the event of a failure carries the issuer, nobody waits (R180). -/
  | signal
  /-- Data that a strand reads: context n of core c, and the number of the read among its own. -/
  | strandData (c n job : Nat)
deriving DecidableEq, Repr

/-- A request at the home of its address: who issued it, the local address (R22), what its answer does, and
the device ID that the address names, own or 0xFFF for this device (R459). -/
structure Req where
  who : Issuer
  addr : Nat
  cont : Cont
  dev : Nat
deriving DecidableEq, Repr

/-- A Nymbiest packet: the four header words of R303 and its data. -/
structure Packet where
  w0 : Word
  w1 : Word
  w2 : Word
  w3 : Word
  data : List Byte
deriving DecidableEq, Repr

/-- The link and network headers of a received Ethernet frame (R364, R365, R380). An IPv4 address is
its 32-bit number, an IPv6 address its 128-bit number. `other`: its EtherType, IP protocol or UDP destination port is
none of those that R365 sorts, whatever the row that brings it. -/
structure Frame where
  srcMac : Nat
  dstMac : Nat
  vlan : Option Nat
  len : Nat
  v6 : Bool
  srcIp : Nat
  dstIp : Nat
  srcPort : Nat
  fragment : Bool
  ce : Bool
  other : Bool := false
deriving DecidableEq, Repr

/-- The forms of a SEND's last packet: it may carry an immediate, or invalidate a key (R368). -/
inductive SendForm where
  | plain | immediate | invalidate
deriving DecidableEq, Repr

/-- The position of an RDMA WRITE packet in its message (R368). -/
inductive Seg where
  | first | middle | last | only
deriving DecidableEq, Repr

/-- The transport fields of a RoCEv2 packet (R368): destination QPN, PSN, RETH or AtomicETH fields and
payload; `form` is a SEND's. `rc` is false for UD, UC and XRC packets. -/
structure RocePkt where
  rc : Bool
  qpn : Nat
  psn : Nat
  ackReq : Bool
  seg : Seg
  va : Nat
  rkey : Nat
  len : Nat
  swapAdd : Word
  compare : Word
  data : List Byte
  form : SendForm := .plain
deriving DecidableEq, Repr

/-- What an RC packet asks (R368): `imm` is an RDMA WRITE with Immediate. -/
inductive RoceOp where
  | write | read | fetchAdd | cmpSwap | imm | send
deriving DecidableEq, Repr

/-- The fields of a queue-pair context (R380). No rule lays them out in bytes. -/
structure QpArgs where
  index : Nat
  state : Nat
  remoteQpn : Nat
  psn : Nat
  v6 : Bool
  remoteIp : Nat
  mac : Nat
  mtu : Nat
  dscp : Nat
  pcp : Nat
  maxOut : Nat
deriving DecidableEq, Repr

/-- The fields of REGION_SET (R379); rights are read (1), write (2) and atomic (4). -/
structure RegionArgs where
  index : Nat
  base : Nat
  length : Nat
  key : Nat
  rights : Nat
  en : Bool
deriving DecidableEq, Repr

/-- The fields of EVENT_DEST (R379, R383). -/
structure DestArgs where
  v6 : Bool
  ip : Nat
  port : Nat
  mac : Nat
  en : Bool
deriving DecidableEq, Repr

/-- A TMP request beside its bytes (R379): the fields that no rule lays out in bytes. -/
inductive TmpReq where
  | regRead | regWrite | qpSet (x : QpArgs) | qpQuery (index : Nat) | regionSet (x : RegionArgs) | eventDest (x : DestArgs)
  | fwBegin | fwChunk | fwCommit | fwStatus | attest | identity
deriving DecidableEq, Repr

/-- An error that a core SRAM read finds (R36): the byte offset of its 8 B word in the core's SRAM, and
whether it is uncorrectable. (DESIGN CHOICE, log entry 10) -/
structure SramFind where
  off : Nat
  uncorrectable : Bool
deriving DecidableEq, Repr

/-- An error that a read of core SRAM finds at its bank, whoever reads (R36): the local address of its 8 B
word, and whether it is uncorrectable. It stands in `State.bankFinds` until a read meets it (DESIGN CHOICE, log entry
10). -/
structure BankFind where
  addr : Nat
  uncorrectable : Bool
deriving DecidableEq, Repr

/-- Kinds of error a stack reports (R268, R270, R271, R273). -/
inductive HbmErr where
  /-- Correctable in the sector, or reported as corrected by a die. -/
  | correctable
  /-- Uncorrectable at first, clean or correctable at a retry. -/
  | retried
  /-- Uncorrectable after two retries. -/
  | uncorrectable
  /-- A write CRC or read parity error on the interface. -/
  | interface
  /-- A correctable error in a cache line. -/
  | cacheCorrectable
  /-- An uncorrectable error in a cache line. -/
  | cacheUncorrectable
deriving DecidableEq, Repr

/-- One error found at a stack: the stack offset of its byte and its kind. -/
structure HbmFind where
  off : Nat
  kind : HbmErr
deriving DecidableEq, Repr

/-- What waits under the engine wait watchdog (R183, R210, R251). -/
inductive Waiter where
  | arrays | side | vector
  /-- Context n of the strand engine. -/
  | strand (n : Nat)
deriving DecidableEq, Repr

/-- Apply boundaries that differ from one another on one page (R395). -/
inductive Boundary where
  /-- The page boundary, with the boundaries that fall together with it. -/
  | page
  /-- The flit boundary of every fabric port, for CHIP_IDENT (R27). -/
  | ident
  /-- The start of the next fan-out descriptor, for SPL_DIST_CFG (R361). -/
  | descriptor
  /-- The next release or cancel of a pending knot slot (R191): h for hall slots 64 + h. -/
  | slot (k : Nat)
  /-- The next vector record boundary, for CORE_COIL_CFG_n (R255): COIL_CFG_APPLY is its arrival. -/
  | vector
deriving DecidableEq, Repr

/-- Causes of a wake (R423, R430). -/
inductive WakeCause where
  | bollard | syncWord | deadline | traffic | command
deriving DecidableEq, Repr

/-- What the governor reads in a window (R425, R426, R429): energy of the last window in µJ, cooling
straps, hottest die sensor in °C, and the cycle counts summed over the cores. -/
structure GovReadings where
  eMeas : Nat
  straps : Nat
  hottest : Int
  aMx : Nat
  aVx : Nat
  issuedMx : Nat
  issuedVx : Nat
deriving DecidableEq, Repr

/-- The input power monitor's readings, as LINEAR11 words (R480), and the temperatures in °C. -/
structure Telemetry where
  vin : Nat
  iin : Nat
  pin : Nat
  temp1 : Nat
  temp2 : Nat
  temp3 : Nat
deriving DecidableEq, Repr

/-- The packet error code of a PMBus command (R480): not sent, good, or failing. -/
inductive Pec where
  | absent | good | bad
deriving DecidableEq, Repr

/-- The commands, one constructor per row of the table of operations and events, in its order.
(DESIGN CHOICE, log entry 63) -/
inductive Instr where
  /-- STEWARD_LAUNCH (R173): the steward of core c takes its launch word. -/
  | stewardLaunch (c : Nat)
  /-- STEWARD_INSTRUCTION (R168): one instruction of core c with no row of its own. -/
  | stewardInstruction (c : Nat) (found : List BankFind)
  /-- STEWARD_LOAD (R169): the load at core c's pc. -/
  | stewardLoad (c : Nat) (found : List BankFind)
  /-- STEWARD_STORE (R169): the store at core c's pc. -/
  | stewardStore (c : Nat)
  /-- STEWARD_AMO (R169): the AMO at core c's pc. -/
  | stewardAmo (c : Nat) (found : List BankFind)
  /-- LR (R169): the LR at core c's pc. -/
  | lr (c : Nat) (found : List BankFind)
  /-- SC (R169): the SC at core c's pc. -/
  | sc (c : Nat)
  /-- FENCE_I (R168): the FENCE.I at core c's pc. -/
  | fenceI (c : Nat)
  /-- WRS_NTO (R181): the WRS.NTO at core c's pc. -/
  | wrsNto (c : Nat)
  /-- WRS_STO (R181): the WRS.STO at core c's pc. -/
  | wrsSto (c : Nat)
  /-- WRS_WAKE (R181): a WRS wait ends on its monitor or an interrupt. -/
  | wrsWake (c : Nat)
  /-- WRS_LIMIT_EXPIRY (R181): a WRS wait ends on its bound. -/
  | wrsLimitExpiry (c : Nat)
  /-- STEWARD_INTERRUPT (R172): a pending and enabled interrupt is taken. -/
  | stewardInterrupt (c : Nat)
  /-- SDTIMECMP_MATCH (R171): the dike time has reached sdtimecmp. -/
  | sdtimecmpMatch (c : Nat)
  /-- MOVE_TO_IDLE (R174): a write of CORE_STW_CTL.CMD = 1. -/
  | moveToIdle (who : Issuer) (c : Nat)
  /-- CORE_STW_MSIP (R172): a write of CORE_STW_MSIP. -/
  | coreStwMsip (who : Issuer) (c : Nat) (v : Word)
  /-- PUSH (R177): the store that pushes a record (8 B, or 4 B to the high half). -/
  | push (who : Issuer) (c port : Nat) (width : Nat) (v : Word)
  /-- PUSH_STALL_RELEASE (R177): a stalled push ends. -/
  | pushStallRelease (c : Nat)
  /-- RESTART_ARRAYS (R178): matrix PORT_CTL code 1. -/
  | restartArrays (who : Issuer) (c : Nat)
  /-- RESTART_SIDE_PATH (R178): matrix PORT_CTL code 2. -/
  | restartSidePath (who : Issuer) (c : Nat)
  /-- RESTART (R178): vector PORT_CTL code 1. -/
  | restart (who : Issuer) (c : Nat)
  /-- STRAND_PORT_RESTART (R201): strand PORT_CTL code 1. -/
  | strandPortRestart (who : Issuer) (c : Nat)
  /-- FLUSH (R178): matrix (0) or vector (1) PORT_CTL code 3. -/
  | flush (who : Issuer) (c port : Nat)
  /-- STRAND_PORT_FLUSH (R201): strand PORT_CTL code 3. -/
  | strandPortFlush (who : Issuer) (c : Nat)
  /-- MATRIX_RECORD_STAGE (R87): the head matrix record is staged. -/
  | matrixRecordStage (c : Nat)
  /-- MATRIX_RECORD_START (R87): the arrays or the side path start their staged record. -/
  | matrixRecordStart (c : Nat) (side : Bool)
  /-- TILE_SET_FILL (R73): the next tile set is loaded into the shadows. -/
  | tileSetFill (c : Nat) (finds : List SramFind)
  /-- SWAP (R73): the filled tile set enters the arrays and its passes run. -/
  | swap (c : Nat) (finds : List SramFind)
  /-- DRAIN (R79): the finished block is drained. -/
  | drain (c : Nat) (finds : List SramFind := [])
  /-- SIDE_LIST_WORK (R84): the side sums of the next block are formed. -/
  | sideListWork (c : Nat) (finds : List SramFind := [])
  /-- SIDE_RECORD (R86): the side path runs its record. -/
  | sideRecord (c : Nat) (finds : List SramFind)
  /-- MATRIX_RECORD_COMPLETE (R89): a matrix record completes and signals. -/
  | matrixRecordComplete (c : Nat) (side : Bool)
  /-- SYNC_WAIT_TIMEOUT (R183): a wait outlasts ENGINE_WAIT. -/
  | syncWaitTimeout (c : Nat) (w : Waiter)
  /-- CHAIN_RECORD_TAKE (R143): the next chain record is staged. -/
  | chainRecordTake (c : Nat)
  /-- CHAIN_RECORD_START (R143): the staged chain record starts. -/
  | chainRecordStart (c : Nat)
  /-- CHAIN_ROW (R142): one row or buffered group passes; `parity` is the element of its rows, counted on from the first, at whose evaluation a parity error of the SFU memory is found. -/
  | chainRow (c : Nat) (finds : List SramFind) (parity : Option Nat)
  /-- CHAIN_RECORD_COMPLETE (R143): the chain record completes. -/
  | chainRecordComplete (c : Nat)
  /-- COIL_STREAM_RESUME (R251): a held row proceeds; `parity` as in CHAIN_ROW. -/
  | coilStreamResume (c : Nat) (finds : List SramFind := []) (parity : Option Nat := none)
  /-- CORE_SFU_LOAD (R163): a write of CORE_SFU_LOAD. -/
  | coreSfuLoad (who : Issuer) (c : Nat) (v : Word)
  /-- SFU_LOAD_APPLY (R164): the queued SFU loads apply. -/
  | sfuLoadApply (c : Nat) (finds : List SramFind)
  /-- STRAND_RECORD_TAKE (R198): the head strand record takes a context. -/
  | strandRecordTake (c : Nat) (finds : List SramFind)
  /-- STRAND_START (R198): the strand of context n starts. -/
  | strandStart (c n : Nat)
  /-- STRAND_ISSUE (R200): the strand engine issues. -/
  | strandIssue (c : Nat) (finds : List SramFind)
  /-- BRAID_TILE (R243): the braid is given to a context. -/
  | braidTile (c : Nat)
  /-- BLOCK_LANDS (R211): a block of context n has landed. -/
  | blockLands (c n : Nat)
  /-- RELEASE_OBSERVED (R211): context n observes its release word. -/
  | releaseObserved (c n : Nat)
  /-- STRAND_COMPLETE (R199): the strand of context n completes. -/
  | strandComplete (c n : Nat)
  /-- STRAND_RESUME (R227): CORE_STRCTX_CMD_n.CMD = 1. -/
  | strandResume (who : Issuer) (c n : Nat)
  /-- STRAND_CANCEL (R227): CORE_STRCTX_CMD_n.CMD = 2. -/
  | strandCancel (who : Issuer) (c n : Nat)
  /-- STRAND_STALL (R231): the stall watchdog of context n. -/
  | strandStall (c n : Nat)
  /-- SET_PRESENT (R229): CHIP_PRES_CMD with OP = 1. -/
  | setPresent (who : Issuer) (v : Word)
  /-- SET_ABSENT (R229): CHIP_PRES_CMD with OP = 2. -/
  | setAbsent (who : Issuer) (v : Word)
  /-- SYNC_WORD_READ (R179): a READ is served at the word's home. -/
  | syncWordRead (q : Req)
  /-- SYNC_WORD_SET (R179): a SET is served at the word's home. -/
  | syncWordSet (q : Req) (v : Word)
  /-- SYNC_WORD_ADD (R179): an ADD is served at the word's home. -/
  | syncWordAdd (q : Req) (v : Int)
  /-- SYNC_WORD_SWAP (R179): a SWAP is served at the word's home. -/
  | syncWordSwap (q : Req) (v : Word)
  /-- SYNC_WORD_CMP_SWAP (R179): a CMP_SWAP is served at the word's home. -/
  | syncWordCmpSwap (q : Req) (cmp v : Word)
  /-- PUT (R184): a PUT arrives at its bollard unit. -/
  | put (q : Req) (v : Word)
  /-- TAKE (R184): a TAKE arrives at its bollard unit. -/
  | take (q : Req)
  /-- LAUNCH_PUT (R184): a host launch PUT arrives. -/
  | launchPut (q : Req) (v : Word)
  /-- BOLLARD_TIMEOUT (R185): the oldest expired bollard wait of core c ends. -/
  | bollardTimeout (c : Nat)
  /-- CORE_KNOT_ARRIVE (R188): a write of CORE_KNOT_ARRIVE. -/
  | coreKnotArrive (who : Issuer) (c : Nat) (v : Word)
  /-- KNOT_CANCEL (R191): KNOT_CMD CMD 1 on chip slot k. -/
  | knotCancel (who : Issuer) (k : Nat)
  /-- HALL_CANCEL (R193): KNOT_CMD CMD 1 on hall slot h. -/
  | hallCancel (who : Issuer) (h : Nat)
  /-- DEVICE_ARRIVAL (R192): KNOT_CMD CMD 2 on hall slot h. -/
  | deviceArrival (who : Issuer) (h : Nat)
  /-- KNOT_MASK_LOAD (R191): a write of KNOT_MASK_LOAD. -/
  | knotMaskLoad (who : Issuer) (v : Word)
  /-- CHIP_KNOT_WATCHDOG (R190): the watchdog of chip slot k. -/
  | chipKnotWatchdog (k : Nat)
  /-- HALL_KNOT_WATCHDOG (R193): the watchdog of hall slot h. -/
  | hallKnotWatchdog (h : Nat)
  /-- KNOT_ARRIVE (R192): a KNOT ARRIVE packet. -/
  | knotArrive (port : Nat) (p : Packet)
  /-- KNOT_RELEASE (R192): a KNOT RELEASE packet. -/
  | knotRelease (port : Nat) (p : Packet)
  /-- COIL_DATA_STORE (R253): a steward store to CORE_COIL_DATA_n. -/
  | coilDataStore (q : Req) (n : Nat) (v : Word)
  /-- COIL_DATA_LOAD (R253): a steward load from CORE_COIL_DATA_n. -/
  | coilDataLoad (q : Req) (n : Nat)
  /-- COIL_ACCESS_RESUME (R253): a waiting coil access completes. -/
  | coilAccessResume (c : Nat)
  /-- COIL_TIMEOUT (R253): a waiting coil access ends. -/
  | coilTimeout (c : Nat)
  /-- COMMIT (R253): coil command COMMIT. -/
  | commit (who : Issuer) (c n : Nat)
  /-- BELAY (R249): coil command BELAY. -/
  | belay (who : Issuer) (c n : Nat)
  /-- REWIND (R249): coil command REWIND. -/
  | rewind (who : Issuer) (c n : Nat)
  /-- RELEASE (R249): coil command RELEASE. -/
  | release (who : Issuer) (c n : Nat)
  /-- COIL_CFG_APPLY (R255): pending coil configurations apply. -/
  | coilCfgApply (c : Nat)
  /-- HBM_READ (R271): a read request at a stack. -/
  | hbmRead (q : Req) (len : Nat) (cls : MemClass) (finds : List HbmFind)
  /-- HBM_WRITE (R265): a write request at a stack. -/
  | hbmWrite (q : Req) (data : List Byte) (cls : MemClass) (finds : List HbmFind)
  /-- RETRAIN_TOKEN_GRANT (R275): stack k receives a retrain token. -/
  | retrainTokenGrant (k : Nat)
  /-- RETRAIN_ATTEMPT_END (R274): a retrain attempt of stack k ends. -/
  | retrainAttemptEnd (k : Nat) (ok : Bool)
  /-- MIGRATION_COPY (R276): the next block is copied. -/
  | migrationCopy (k : Nat) (finds : List HbmFind)
  /-- CALIBRATION (R281): a calibration falls due. -/
  | calibration (k pc : Nat)
  /-- SCRUB (R282): patrol scrub reads the next block. -/
  | scrub (k : Nat) (finds : List HbmFind)
  /-- REFRESH_INTERVAL (R263): a refresh interval of stack k. -/
  | refreshInterval (k : Nat)
  /-- HBM_ERROR_WINDOW (R273): an error window of stack k ends. -/
  | hbmErrorWindow (k : Nat)
  /-- MSC_WRITE_BACK (R269): MSC_CMD 1. -/
  | mscWriteBack (who : Issuer) (k : Nat)
  /-- MSC_WRITE_BACK_INVALIDATE (R269): MSC_CMD 2. -/
  | mscWriteBackInvalidate (who : Issuer) (k : Nat)
  /-- MSC_CMD_DONE (R269): the MSC command passes the last set. -/
  | mscCmdDone (k : Nat)
  /-- SOFT_REPAIR (R284): STK_REPAIR_CMD OP 1. -/
  | softRepair (who : Issuer) (k : Nat) (v : Word)
  /-- HARD_REPAIR (R284): STK_REPAIR_CMD OP 2. -/
  | hardRepair (who : Issuer) (k : Nat) (v : Word)
  /-- LANE_REMAP (R284): STK_REPAIR_CMD OP 3. -/
  | laneRemap (who : Issuer) (k : Nat) (v : Word)
  /-- REPAIR_COMPLETE (R284): the running repair ends. -/
  | repairComplete (k : Nat) (ok : Bool)
  /-- STK_1500_INSTR (R283): a write of STK_1500_INSTR. -/
  | stk1500Instr (who : Issuer) (k : Nat) (v : Word)
  /-- STK_1500_DATA_WRITE (R285): a write of STK_1500_DATA. -/
  | stk1500DataWrite (who : Issuer) (k : Nat) (v : Word)
  /-- STK_1500_DATA_READ (R285): a read of STK_1500_DATA. -/
  | stk1500DataRead (q : Req) (k : Nat)
  /-- FLIT_RECEIVE (R291): a flit arrives with its FEC findings. -/
  | flitReceive (port half : Nat) (flit : List Byte) (corrected : Nat) (badLanes : List Nat)
  /-- LANE_LOCK_LOSS (R314): a lane loses lock. -/
  | laneLockLoss (port lane : Nat)
  /-- FPORT_RETRAIN (R314): FPORT_CMD CMD 1. -/
  | fportRetrain (who : Issuer) (port half : Nat)
  /-- LINK_RETRAIN_ATTEMPT_END (R314): a link retrain attempt ends. -/
  | linkRetrainAttemptEnd (port half : Nat) (failed : List Nat)
  /-- FPORT_REINSTATE (R315): FPORT_CMD CMD 2. -/
  | fportReinstate (who : Issuer) (port half : Nat)
  /-- FABRIC_ERROR_WINDOW (R315): a lane error window ends. -/
  | fabricErrorWindow (port : Nat)
  /-- LINK_UP (R288): a fabric link comes up. -/
  | linkUp (port half : Nat)
  /-- LINK_HELLO (R316): a LINK HELLO arrives. -/
  | linkHello (port half : Nat) (p : Packet)
  /-- READ (R304): a READ packet arrives. -/
  | read (port : Nat) (p : Packet) (found : List BankFind)
  /-- WRITE (R304): a WRITE packet arrives. -/
  | write (port : Nat) (p : Packet)
  /-- SPLICE_ACC (R340): a SPLICE ACC packet arrives. -/
  | spliceAcc (port : Nat) (p : Packet)
  /-- SPLICE_MAX (R340): a SPLICE MAX packet arrives. -/
  | spliceMax (port : Nat) (p : Packet)
  /-- SYNC_ADD (R304): a SYNC ADD packet arrives. -/
  | syncAdd (port : Nat) (p : Packet)
  /-- SYNC_SUB (R304): a SYNC SUB packet arrives. -/
  | syncSub (port : Nat) (p : Packet)
  /-- SYNC_SET (R304): a SYNC SET packet arrives. -/
  | syncSet (port : Nat) (p : Packet)
  /-- SYNC_READ (R304): a SYNC READ packet arrives. -/
  | syncRead (port : Nat) (p : Packet)
  /-- BOLLARD_PUT (R306): a BOLLARD PUT packet arrives. -/
  | bollardPut (port : Nat) (p : Packet)
  /-- BOLLARD_TAKE (R306): a BOLLARD TAKE packet arrives. -/
  | bollardTake (port : Nat) (p : Packet)
  /-- MIRROR_WRITE (R312): a MIRROR WRITE packet arrives. -/
  | mirrorWrite (port : Nat) (p : Packet)
  /-- FAN_OUT_WRITE (R309): a FAN OUT WRITE packet arrives. -/
  | fanOutWrite (port : Nat) (p : Packet)
  /-- FAN_OUT_ANSWER (R309): the fan-out with this number is answered. -/
  | fanOutAnswer (id : Nat)
  /-- RESPONSE (R304): a RESPONSE packet arrives. -/
  | response (port : Nat) (p : Packet)
  /-- FAB_TIMEOUT (R318): an outstanding request expires. -/
  | fabTimeout (reqId : Nat)
  /-- FAB_CREDIT_STALL (R293): a lane has waited CREDIT_STALL ticks. -/
  | fabCreditStall (port half vl : Nat)
  /-- FAB_ROUTE_LOAD (R302): a write of FAB_ROUTE_LOAD. -/
  | fabRouteLoad (who : Issuer) (v : Word)
  /-- FAB_FANOUT_CMD (R310): a write of FAB_FANOUT_CMD. -/
  | fabFanoutCmd (who : Issuer) (v : Word)
  /-- FANOUT_DESCRIPTOR (R310): the next fan-out descriptor starts. -/
  | fanoutDescriptor
  /-- FANOUT_COMPLETE (R310): the running fan-out descriptor ends. -/
  | fanoutComplete
  /-- FAB_MIRROR_CMD (R313): a write of FAB_MIRROR_CMD. -/
  | fabMirrorCmd (who : Issuer) (v : Word)
  /-- SPL_TAG_OPEN (R328): a write of SPL_TAG_OPEN. -/
  | splTagOpen (who : Issuer) (k : Nat) (v : Word)
  /-- ZEROING_COMPLETE (R331): a tag's zeroing completes. -/
  | zeroingComplete (k tag : Nat)
  /-- VERDICT (R345): a tag's verdicts. -/
  | verdict (k tag : Nat)
  /-- READ_OUT_COMPLETE (R345): a tag's read-out completes. -/
  | readOutComplete (k tag : Nat)
  /-- SPLICE_ABORT (R344): SPL_TAG_CMD with CMD 1. -/
  | spliceAbort (who : Issuer) (k : Nat) (v : Word)
  /-- SPLICE_TIMEOUT (R344): a round outlasts TAG_WDOG. -/
  | spliceTimeout (k tag : Nat)
  /-- SPL_SEND_CMD (R335): a write of SPL_SEND_CMD. -/
  | splSendCmd (who : Issuer) (k : Nat) (v : Word)
  /-- SEND_DESCRIPTOR (R337): the next send descriptor runs. -/
  | sendDescriptor (k : Nat)
  /-- SEND_COMPLETE (R338): the send descriptor has been answered. -/
  | sendComplete (k : Nat)
  /-- SKETCH (R349): SPL_AUX_CMD with OP 1. -/
  | sketch (who : Issuer) (k : Nat) (v : Word)
  /-- MASK_EXPAND (R353): SPL_AUX_CMD with OP 2. -/
  | maskExpand (who : Issuer) (k : Nat) (v : Word)
  /-- ARP (R364): an ARP request. -/
  | arp (f : Frame) (target senderIp senderMac : Nat)
  /-- NEIGHBOUR_SOLICITATION (R364): an IPv6 neighbour solicitation. -/
  | neighbourSolicitation (f : Frame) (target : Nat)
  /-- PFC_FRAME (R366): a PFC frame. -/
  | pfcFrame (f : Frame) (prios : List Nat) (pause : Bool)
  /-- RDMA_WRITE (R370): a RoCE packet. -/
  | rdmaWrite (f : Frame) (p : RocePkt)
  /-- RDMA_READ (R370): a RoCE packet. -/
  | rdmaRead (f : Frame) (p : RocePkt) (found : List BankFind)
  /-- ATOMIC_FETCH_ADD (R371): a RoCE packet. -/
  | atomicFetchAdd (f : Frame) (p : RocePkt) (found : List BankFind)
  /-- ATOMIC_CMP_SWAP (R371): a RoCE packet. -/
  | atomicCmpSwap (f : Frame) (p : RocePkt) (found : List BankFind)
  /-- RDMA_WRITE_WITH_IMMEDIATE (R368): a RoCE packet. -/
  | rdmaWriteWithImmediate (f : Frame) (p : RocePkt)
  /-- SEND (R368): a RoCE packet. -/
  | send (f : Frame) (p : RocePkt)
  /-- CNP (R376): a RoCE packet. -/
  | cnp (f : Frame) (p : RocePkt)
  /-- DCQCN_TIMER (R376): the α and increase timer. -/
  | dcqcnTimer (qp : Nat)
  /-- DCQCN_BYTE_COUNTER (R376): the byte counter. -/
  | dcqcnByteCounter (qp : Nat)
  /-- ETH_LINK_DOWN (R367): the Ethernet link goes down. -/
  | ethLinkDown
  /-- ETH_LINK_UP (R367): the Ethernet link comes up. -/
  | ethLinkUp
  /-- REG_READ (R379): a TMP datagram. -/
  | regRead (f : Frame) (m : List Byte)
  /-- REG_WRITE (R379): a TMP datagram. -/
  | regWrite (f : Frame) (m : List Byte)
  /-- QP_SET (R380): a TMP datagram and the fields of its payload. -/
  | qpSet (f : Frame) (m : List Byte) (x : QpArgs)
  /-- QP_QUERY (R379): a TMP datagram and the fields of its payload. -/
  | qpQuery (f : Frame) (m : List Byte) (index : Nat)
  /-- REGION_SET (R379): a TMP datagram and the fields of its payload. -/
  | regionSet (f : Frame) (m : List Byte) (x : RegionArgs)
  /-- EVENT_DEST (R383): a TMP datagram and the fields of its payload. -/
  | eventDest (f : Frame) (m : List Byte) (x : DestArgs)
  /-- FW_BEGIN (R446): a TMP datagram. -/
  | fwBegin (f : Frame) (m : List Byte)
  /-- ERASE_COMPLETE (R446): the slot erase ends. -/
  | eraseComplete
  /-- FW_CHUNK (R447): a TMP datagram. -/
  | fwChunk (f : Frame) (m : List Byte)
  /-- FW_COMMIT (R446): a TMP datagram. -/
  | fwCommit (f : Frame) (m : List Byte)
  /-- FW_STATUS (R446): a TMP datagram. -/
  | fwStatus (f : Frame) (m : List Byte)
  /-- ACTIVATE (R449): the scheduled activation. -/
  | activate
  /-- ATTEST (R451): a TMP datagram. -/
  | attest (f : Frame) (m : List Byte)
  /-- QUOTE_BUILT (R451): the quote is complete. -/
  | quoteBuilt
  /-- IDENTITY (R379): a TMP datagram. -/
  | identity (f : Frame) (m : List Byte)
  /-- TMP_DENIAL_WINDOW (R382): a denial window ends. -/
  | tmpDenialWindow
  /-- EVENT_DATAGRAM (R383): an event datagram leaves. -/
  | eventDatagram
  /-- REGISTER_WRITE (R394): a write to a register. -/
  | registerWrite (q : Req) (width : Nat) (v : Word)
  /-- LOW_WORD_READ (R391): a 4 B read of a low word. -/
  | lowWordRead (q : Req)
  /-- HIGH_WORD_READ (R391): a 4 B read of a high word. -/
  | highWordRead (q : Req)
  /-- LOW_WORD_WRITE (R392): a 4 B write of a low word. -/
  | lowWordWrite (q : Req) (v : Word)
  /-- HIGH_WORD_WRITE (R392): a 4 B write of a high word. -/
  | highWordWrite (q : Req) (v : Word)
  /-- HOLD (R397): a write of APPLY_CTL.HOLD. -/
  | hold (who : Issuer) (p : PageId) (v : Bool)
  /-- APPLY (R397): a write of APPLY_CTL.APPLY. -/
  | apply (who : Issuer) (p : PageId)
  /-- FORCE (R397): a write of APPLY_CTL.FORCE. -/
  | force (who : Issuer) (p : PageId)
  /-- APPLY_BOUNDARY (R394): an apply boundary of a page arrives. -/
  | applyBoundary (p : PageId) (b : Boundary)
  /-- CONFIGURATION_COMPARISON (R405): a page is compared. -/
  | configurationComparison (p : PageId)
  /-- EVT_ACK (R402): a write of EVT_ACK. -/
  | evtAck (who : Issuer) (p : PageId) (v : Word)
  /-- EVENT_LOG (R461): the collector logs. -/
  | eventLog
  /-- PAGE_LIMIT_WINDOW (R462): an event limit window ends. -/
  | pageLimitWindow
  /-- SATURATION_WINDOW (R62): a saturation window of core c ends. -/
  | saturationWindow (c : Nat)
  /-- SLU_DRAIN (R421): SLU_CMD OP 1. -/
  | sluDrain (who : Issuer) (p : Nat)
  /-- SLU_WAKE (R423): SLU_CMD OP 2. -/
  | sluWake (who : Issuer) (p : Nat)
  /-- SLU_RESET_CORE (R417): a write of SLU_RESET. -/
  | sluResetCore (who : Issuer) (target : Nat)
  /-- SLU_RESET_POLDER (R417): a write of SLU_RESET. -/
  | sluResetPolder (who : Issuer) (target : Nat)
  /-- SLU_RESET_FABRIC_PORT (R417): a write of SLU_RESET. -/
  | sluResetFabricPort (who : Issuer) (target : Nat)
  /-- SLU_RESET_HOST_PORT (R417): a write of SLU_RESET. -/
  | sluResetHostPort (who : Issuer)
  /-- SLU_RESET_CHIP (R417): a write of SLU_RESET. -/
  | sluResetChip (who : Issuer)
  /-- CORE_RESET (R417): a core reset takes effect. -/
  | coreReset (c : Nat)
  /-- POLDER_RESET (R417): a polder reset takes effect. -/
  | polderReset (p : Nat)
  /-- FABRIC_PORT_RESET (R417): a fabric port reset takes effect. -/
  | fabricPortReset (p : Nat)
  /-- HOST_PORT_RESET (R417): the host port reset takes effect. -/
  | hostPortReset
  /-- CHIP_RESET (R417): a chip reset takes effect. -/
  | chipReset
  /-- DRAIN_DELAY_EXPIRY (R421): a quiescent polder enters DRAINING. -/
  | drainDelayExpiry (p : Nat)
  /-- DRAINING_COMPLETE (R420): a polder is DRAINED. -/
  | drainingComplete (p : Nat)
  /-- WAKE_EVENT (R423): a wake event reaches the sluice. -/
  | wakeEvent (p : Nat) (cause : WakeCause)
  /-- WAKE_LEAD_EXPIRY (R216): a registered t_dry minus WAKE_LEAD is reached. -/
  | wakeLeadExpiry (p : Nat)
  /-- POWER_UP_GRANT (R424): up to 8 polders are admitted. -/
  | powerUpGrant
  /-- WAKE_COMPLETE (R424): a polder resumes. -/
  | wakeComplete (p : Nat)
  /-- GOVERNOR_WINDOW (R426): a governor window begins. -/
  | governorWindow (g : GovReadings)
  /-- VIN_VALID (R477): VIN becomes valid. -/
  | vinValid
  /-- VIN_OFF (R475): VIN leaves its limits. -/
  | vinOff
  /-- PWR_EN_RISE (R477): PWR_EN rises. -/
  | pwrEnRise
  /-- PWR_EN_FALL (R477): PWR_EN falls. -/
  | pwrEnFall
  /-- PWR_GOOD (R434): PWR_GOOD is asserted. -/
  | pwrGood
  /-- PWR_GOOD_LOSS (R433): PWR_GOOD falls. -/
  | pwrGoodLoss
  /-- RESET_N_ASSERT (R478): RESET_N has been low for 20 ticks. -/
  | resetNAssert
  /-- WARM_START (R437): a chip reset ends. -/
  | warmStart
  /-- THERMAL_TRIP (R482): a sensor reads a temperature. -/
  | thermalTrip (group : Nat) (celsius : Int)
  /-- PRESENT_N_CHANGE (R479): the module is mated or unmated. -/
  | presentNChange (mated : Bool)
  /-- SLOT_VERIFY (R444): the boot ROM finishes a slot. -/
  | slotVerify (readError : Bool)
  /-- STACK_TRAINING_COMPLETE (R440): a batch of trainings or checks ends. -/
  | stackTrainingComplete (failed : List Nat)
  /-- INIT_COMPLETE (R433): INIT ends. -/
  | initComplete
  /-- START_WATCHDOG (R439): a start has lasted 8 s. -/
  | startWatchdog
  /-- BURN_SVN (R448): SEC_CMD OP 1. -/
  | burnSvn (who : Issuer) (v : Word)
  /-- CLEAR_LOG_ENTRY (R440): SEC_CMD OP 2. -/
  | clearLogEntry (who : Issuer) (v : Word)
  /-- PMBUS_TELEMETRY_SAMPLE (R480): the 1 ms readings. -/
  | pmbusTelemetrySample (t : Telemetry)
  /-- CLEAR_FAULTS (R480): a PMBus command. -/
  | clearFaults (pec : Pec)
  /-- STATUS_WORD (R480): a PMBus command. -/
  | statusWord (pec : Pec)
  /-- STATUS_INPUT (R480): a PMBus command. -/
  | statusInput (pec : Pec)
  /-- STATUS_TEMPERATURE (R480): a PMBus command. -/
  | statusTemperature (pec : Pec)
  /-- READ_VIN (R480): a PMBus command. -/
  | readVin (pec : Pec)
  /-- READ_IIN (R480): a PMBus command. -/
  | readIin (pec : Pec)
  /-- READ_TEMPERATURE_1 (R480): a PMBus command. -/
  | readTemperature1 (pec : Pec)
  /-- READ_TEMPERATURE_2 (R480): a PMBus command. -/
  | readTemperature2 (pec : Pec)
  /-- READ_TEMPERATURE_3 (R480): a PMBus command. -/
  | readTemperature3 (pec : Pec)
  /-- READ_PIN (R480): a PMBus command. -/
  | readPin (pec : Pec)
  /-- PMBUS_REVISION (R480): a PMBus command. -/
  | pmbusRevision (pec : Pec)
  /-- MFR_ID (R480): a PMBus command. -/
  | mfrId (pec : Pec)
  /-- MFR_MODEL (R480): a PMBus command. -/
  | mfrModel (pec : Pec)
  /-- MFR_SERIAL (R480): a PMBus command. -/
  | mfrSerial (pec : Pec)
  /-- MFR_COOL_ID (R480): a PMBus command. -/
  | mfrCoolId (pec : Pec)
  /-- PMBUS_INVALID_COMMAND (R480): any other PMBus command. -/
  | pmbusInvalidCommand (code : Nat) (pec : Pec)
  /-- AUX_COMMAND_COMPLETE (R360): an auxiliary command ends. -/
  | auxCommandComplete (k : Nat)
  /-- CALIBRATION_COMPLETE (R281): a calibration ends. -/
  | calibrationComplete (k : Nat)
  /-- BRINGUP_WRITE_BACK_COMPLETE (R283): the BRINGUP write-back ends. -/
  | bringupWriteBackComplete (k : Nat)
deriving DecidableEq, Repr

end Sys2Proof
end

