-- ==== Sys2Proof/Decode.lean ====
section
/-! DEFINITION. Commands from words. No row of the table of operations and events gives bits, so no
word spells a command. -/

namespace Sys2Proof

/-- The command that the low `nbits` bits of a word spell: the table gives bits to no row.
(DESIGN CHOICE, log entry 7) -/
def decodeTableWord (_nbits _w : Nat) : Option Instr := none

end Sys2Proof
end

