-- ==== Sys2Proof/Config.lean ====
section
/-! DEFINITION. What an implementation fixes and what the spec leaves open. A constant without a body is
a free value: nothing can be proved of it, so a claim about the model holds whatever it is. -/

namespace Sys2Proof

/-- Bits the spec calls undefined or does not state, drawn with the counter `State.freeCount`
(DESIGN CHOICE, log entry 5). -/
opaque Config.freeValue : Nat → BitVec 64

/-- The free bits as a number below 2^n. -/
def Config.freeBits (draw n : Nat) : Nat := (Config.freeValue draw).toNat % 2 ^ n

/-- The result of built-in special function f of form v on the FP32 operand patterns a and b where R152
and R153 only bound it: a fixed function of its operands (DESIGN CHOICE, log entry 30). -/
opaque Config.builtin : Nat → Nat → Nat → BitVec 32

/-- The SM2 private key that the physically unclonable function of a die yields (R450): no rule states
it. -/
opaque Config.identitySeed : Nat → BitVec 256

/-- The mesh edge port of its stack, 0 or 1, through which an issuer's requests come, by the issuer's node: no rule
assigns one (DESIGN CHOICE, log entry 71). -/
opaque Config.edgePort : Nat → BitVec 1

/-- Does mtval hold the instruction's bits after an illegal-instruction exception, rather than zero? The
RISC-V standard allows both (PRESUMED, log entry 20). -/
opaque Config.illegalTval : Bool

/-- Does mtval hold the pc after a breakpoint exception, rather than zero (PRESUMED, log entry 20)? -/
opaque Config.ebreakTval : Bool

end Sys2Proof
end

