-- ==== Sys2Proof/Machine/Bits.lean ====
section
/-! DEFINITION. Bit fields, sign extension, byte order, CRC-32C (R404), the random generator of R60
and the SM3 digest that R444 and R451 name. Everything here is arithmetic on numbers. -/

namespace Sys2Proof.Machine

/-- Bits [hi:lo] of n (R4). -/
def bits (n hi lo : Nat) : Nat := (n >>> lo) % 2 ^ (hi + 1 - lo)

/-- Bit i of n. -/
def bit (n i : Nat) : Bool := n.testBit i

/-- A Boolean as 0 or 1. -/
def b2n (b : Bool) : Nat := if b then 1 else 0

/-- The two's complement value of the low w bits of n. -/
def sext (n w : Nat) : Int :=
  let m := n % 2 ^ w
  if m ≥ 2 ^ (w - 1) then (m : Int) - 2 ^ w else m

/-- The low w bits of an integer, as a natural number (two's complement). -/
def toBits (i : Int) (w : Nat) : Nat := (i % (2 ^ w : Int)).toNat

/-- Does t_dry a come before b: the smaller one by the signed difference of the low 32 bits, and every deadline before
bulk (R213)? -/
def dryBefore (a b : Option Int) : Bool :=
  match a, b with
  | some x, some y => decide (sext ((x - y) % 2 ^ 32).toNat 32 < 0)
  | some _, none => true
  | none, _ => false

/-- The value v placed at bit lo, cut to the field's width. -/
def fld (v hi lo : Nat) : Nat := (v % 2 ^ (hi + 1 - lo)) <<< lo

/-- The value of a little-endian byte list (R4). -/
def leNat : List Byte → Nat
  | [] => 0
  | b :: bs => b.toNat + 256 * leNat bs

/-- n bytes of v, least significant first (R4). -/
def leBytes : Nat → Nat → List Byte
  | 0, _ => []
  | n + 1, v => BitVec.ofNat 8 v :: leBytes n (v / 256)

/-- The value of a big-endian byte list (GB/T 32918 integers, R444; RoCE atomics, R371). -/
def beNat (bs : List Byte) : Nat := bs.foldl (fun a b => 256 * a + b.toNat) 0

/-- n bytes of v, most significant first. -/
def beBytes (n v : Nat) : List Byte := (leBytes n v).reverse

/-- ⌈a / b⌉. -/
def cdiv (a b : Nat) : Nat := (a + b - 1) / b

/-- The indexes 0 … n − 1. -/
def upto (n : Nat) : List Nat := List.range n

/-- a rounded down to a multiple of b. -/
def alignDown (a b : Nat) : Nat := a - a % b

/-- Two half-open byte intervals share a byte. -/
def overlaps (a la b lb : Nat) : Bool := 0 < la && 0 < lb && a < b + lb && b < a + la

/-! ## Sparse maps: an association list with a default for every key that is not listed -/

/-- The value listed for key k. -/
def alookup {κ α : Type} [DecidableEq κ] (k : κ) : List (κ × α) → Option α
  | [] => none
  | (k', v) :: r => if k' = k then some v else alookup k r

/-- The value at key k, d where none is listed. -/
def aget {κ α : Type} [DecidableEq κ] (d : α) (k : κ) (l : List (κ × α)) : α := (alookup k l).getD d

/-- The map with v at key k. -/
def aset {κ α : Type} [DecidableEq κ] (k : κ) (v : α) : List (κ × α) → List (κ × α)
  | [] => [(k, v)]
  | (k', v') :: r => if k' = k then (k, v) :: r else (k', v') :: aset k v r

/-- The map without key k. -/
def adel {κ α : Type} [DecidableEq κ] (k : κ) (l : List (κ × α)) : List (κ × α) :=
  l.filter (fun p => decide (p.1 ≠ k))

/-- Element i of a list, d beyond its end. -/
def nth {α : Type} (d : α) (l : List α) (i : Nat) : α := l.getD i d

/-- An element put into a list before the first element that it is not after. -/
def insertBy {α : Type} (le : α → α → Bool) (a : α) : List α → List α
  | [] => [a]
  | b :: r => if le a b then a :: b :: r else b :: insertBy le a r

/-- A list in ascending order; elements that are alike keep theirs. -/
def sortBy {α : Type} (le : α → α → Bool) (l : List α) : List α := l.foldr (insertBy le) []

/-- A list with element i replaced (unchanged where i lies beyond its end). -/
def put {α : Type} (l : List α) (i : Nat) (v : α) : List α := l.set i v

/-- The list cut or filled with d to length n. -/
def fit {α : Type} (d : α) (n : Nat) (l : List α) : List α := (l ++ List.replicate (n - l.length) d).take n

/-- Consecutive pieces of length n + 1 of a list. -/
def chunks {α : Type} (n : Nat) : Nat → List α → List (List α)
  | 0, _ => []
  | _ + 1, [] => []
  | k + 1, l => l.take (n + 1) :: chunks n k (l.drop (n + 1))

/-! ## CRC-32C (R404) -/

/-- One shift of the reflected Castagnoli register. -/
def crcBit (c : Nat) : Nat := (c >>> 1) ^^^ (c % 2 * 0x82F63B78)

/-- The register after one byte. -/
def crcByte (c : Nat) (d : Byte) : Nat :=
  crcBit (crcBit (crcBit (crcBit (crcBit (crcBit (crcBit (crcBit (c ^^^ d.toNat))))))))

/-- CRC-32C of a byte sequence (R404). -/
def crc32c (bs : List Byte) : Nat := (bs.foldl crcByte 0xFFFFFFFF) ^^^ 0xFFFFFFFF

/-! ## The generator of R60 -/

/-- The 24-bit output r for element index j of tensor id d under seed s (R60). -/
def gen24 (s d j : Nat) : Nat :=
  let m := 2 ^ 64
  let x := (s % m) ^^^ ((d * 0x9E3779B97F4A7C15) % m) ^^^ ((j * 0xD1B54A32D192ED03) % m)
  let x := x ^^^ (x >>> 30)
  let x := (x * 0xBF58476D1CE4E5B9) % m
  let x := x ^^^ (x >>> 27)
  let x := (x * 0x94D049BB133111EB) % m
  let x := x ^^^ (x >>> 31)
  x >>> 40

/-! ## SM3 (GB/T 32905, named by R444) -/

/-- Rotation left in 32 bits. -/
def rotl32 (x k : Nat) : Nat := ((x <<< (k % 32)) ||| ((x % 2 ^ 32) >>> (32 - k % 32))) % 2 ^ 32

/-- The compression state of SM3: eight 32-bit words. -/
structure Sm3 where
  a : Nat
  b : Nat
  c : Nat
  d : Nat
  e : Nat
  f : Nat
  g : Nat
  h : Nat
deriving DecidableEq, Repr

/-- The initial value of SM3. -/
def Sm3.init : Sm3 :=
  ⟨0x7380166f, 0x4914b2b9, 0x172442d7, 0xda8a0600, 0xa96f30bc, 0x163138aa, 0xe38dee4d, 0xb0fb0e4e⟩

/-- The message expansion: n more words of a block, all newest first. -/
def sm3Expand : Nat → List Nat → List Nat
  | 0, w => w
  | n + 1, w =>
    let x := nth 0 w 15 ^^^ nth 0 w 8 ^^^ rotl32 (nth 0 w 2) 15
    sm3Expand n ((x ^^^ rotl32 x 15 ^^^ rotl32 x 23 ^^^ rotl32 (nth 0 w 12) 7 ^^^ nth 0 w 5) :: w)

/-- One round of SM3. -/
def sm3Round (w : List Nat) (s : Sm3) (j : Nat) : Sm3 :=
  let m := 2 ^ 32
  let t := if j < 16 then 0x79cc4519 else 0x7a879d8a
  let ss1 := rotl32 ((rotl32 s.a 12 + s.e + rotl32 t j) % m) 7
  let ss2 := ss1 ^^^ rotl32 s.a 12
  let neg := fun x => (m - 1) - x
  let ff := if j < 16 then s.a ^^^ s.b ^^^ s.c else (s.a &&& s.b) ||| (s.a &&& s.c) ||| (s.b &&& s.c)
  let gg := if j < 16 then s.e ^^^ s.f ^^^ s.g else (s.e &&& s.f) ||| (neg s.e &&& s.g)
  let tt1 := (ff + s.d + ss2 + (nth 0 w j ^^^ nth 0 w (j + 4))) % m
  let tt2 := (gg + s.h + ss1 + nth 0 w j) % m
  { a := tt1, b := s.a, c := rotl32 s.b 9, d := s.c
    e := tt2 ^^^ rotl32 tt2 9 ^^^ rotl32 tt2 17, f := s.e, g := rotl32 s.f 19, h := s.g }

/-- One 64-byte block of SM3. -/
def sm3Block (s : Sm3) (blk : List Byte) : Sm3 :=
  let w := (sm3Expand 52 ((chunks 3 16 blk).map beNat).reverse).reverse
  let r := (upto 64).foldl (sm3Round w) s
  { a := r.a ^^^ s.a, b := r.b ^^^ s.b, c := r.c ^^^ s.c, d := r.d ^^^ s.d
    e := r.e ^^^ s.e, f := r.f ^^^ s.f, g := r.g ^^^ s.g, h := r.h ^^^ s.h }

/-- The SM3 digest of a byte sequence, 32 bytes. -/
def sm3 (msg : List Byte) : List Byte :=
  let n := msg.length
  let padded := msg ++ [0x80#8] ++ List.replicate ((119 - n % 64) % 64) 0#8 ++ beBytes 8 (8 * n)
  let s := (chunks 63 (padded.length / 64) padded).foldl sm3Block Sm3.init
  [s.a, s.b, s.c, s.d, s.e, s.f, s.g, s.h].flatMap (beBytes 4)

/-! ## SM2 verification (GB/T 32918, ISO/IEC 14888-3, named by R444) -/

/-- The recommended 256-bit curve: field prime, coefficients, order and base point. -/
def sm2p : Nat := 0xFFFFFFFEFFFFFFFFFFFFFFFFFFFFFFFFFFFFFFFF00000000FFFFFFFFFFFFFFFF
/-- The curve's coefficient a. -/
def sm2a : Nat := sm2p - 3
/-- The curve's coefficient b. -/
def sm2b : Nat := 0x28E9FA9E9D9F5E344D5A9E4BCF6509A7F39789F515AB8F92DDBCBD414D940E93
/-- The order n of the base point. -/
def sm2n : Nat := 0xFFFFFFFEFFFFFFFFFFFFFFFFFFFFFFFF7203DF6B21C6052B53BBF40939D54123
/-- The base point's x. -/
def sm2gx : Nat := 0x32C4AE2C1F1981195F9904466A39C9948FE30BBFF2660BE1715A4589334C74C7
/-- The base point's y. -/
def sm2gy : Nat := 0xBC3736A2F4F6779C59BDCEE36B692153D0A9877CC62A474002DF32E52139F0A0

/-- a^e modulo m by squaring, over `fuel` bits of e. -/
def powMod (m : Nat) : Nat → Nat → Nat → Nat
  | 0, _, _ => 1 % m
  | fuel + 1, a, e =>
    let r := powMod m fuel (a * a % m) (e / 2)
    if e % 2 = 1 then a * r % m else r

/-- The inverse modulo a prime. -/
def invMod (m a : Nat) : Nat := powMod m 256 (a % m) (m - 2)

/-- A point of the curve in Jacobian coordinates: (x / z², y / z³), the point at infinity where z is 0. -/
structure Sm2Point where
  x : Nat
  y : Nat
  z : Nat
deriving DecidableEq, Repr

/-- Twice a point. -/
def sm2Double (p : Sm2Point) : Sm2Point :=
  let m := sm2p
  let yy := p.y * p.y % m
  let s := 4 * p.x * yy % m
  let zz := p.z * p.z % m
  let t := (3 * p.x * p.x + sm2a * (zz * zz % m)) % m
  let x := (t * t + 2 * m - 2 * s) % m
  { x := x, y := (t * (s + m - x) + 8 * m * m - 8 * yy * yy) % m, z := 2 * p.y * p.z % m }

/-- The sum of two points. -/
def sm2Add (p q : Sm2Point) : Sm2Point :=
  let m := sm2p
  if p.z = 0 then q
  else if q.z = 0 then p
  else
    let pp := p.z * p.z % m
    let qq := q.z * q.z % m
    let u := p.x * qq % m
    let v := q.x * pp % m
    let s := p.y * q.z % m * qq % m
    let t := q.y * p.z % m * pp % m
    if u = v then (if s = t then sm2Double p else { x := 1, y := 1, z := 0 })
    else
      let h := (v + m - u) % m
      let r := (t + m - s) % m
      let hh := h * h % m
      let hhh := h * hh % m
      let w := u * hh % m
      let x := (r * r + 3 * m - hhh - 2 * w) % m
      { x := x, y := (r * (w + m - x) + m * m - s * hhh) % m, z := h * p.z % m * q.z % m }

/-- k times a point, over `fuel` bits of k. -/
def sm2Mul : Nat → Nat → Sm2Point → Sm2Point
  | 0, _, _ => { x := 1, y := 1, z := 0 }
  | fuel + 1, k, p =>
    let r := sm2Mul fuel (k / 2) (sm2Double p)
    if k % 2 = 1 then sm2Add p r else r

/-- A point's affine coordinates; none is the point at infinity. -/
def sm2Affine (p : Sm2Point) : Option (Nat × Nat) :=
  let i := invMod sm2p p.z
  if p.z = 0 then none else some (p.x * i % sm2p * i % sm2p, p.y * i % sm2p * i % sm2p * i % sm2p)

/-- The digest e of a message under a signer's identifier and key (GB/T 32918.2). -/
def sm2Digest (ident : List Byte) (px py : Nat) (msg : List Byte) : Nat :=
  let za := sm3 (beBytes 2 (8 * ident.length) ++ ident ++ beBytes 32 sm2a ++ beBytes 32 sm2b
    ++ beBytes 32 sm2gx ++ beBytes 32 sm2gy ++ beBytes 32 px ++ beBytes 32 py)
  beNat (sm3 (za ++ msg))

/-- Verification of the signature (r, s) of a message. -/
def sm2Verify (ident : List Byte) (px py : Nat) (msg : List Byte) (r s : Nat) : Bool :=
  let e := sm2Digest ident px py msg
  let onCurve := px < sm2p && py < sm2p && (py * py) % sm2p == (px * px * px + sm2a * px + sm2b) % sm2p
  let t := (r + s) % sm2n
  if !onCurve || r == 0 || s == 0 || r ≥ sm2n || s ≥ sm2n || t == 0 then false
  else match sm2Affine (sm2Add (sm2Mul 256 s { x := sm2gx, y := sm2gy, z := 1 }) (sm2Mul 256 t { x := px, y := py, z := 1 })) with
    | none => false
    | some (x1, _) => (e + x1) % sm2n == r

end Sys2Proof.Machine
end

