-- ==== Sys2Proof/Machine/State.lean ====
section
/-! DEFINITION. The state of the module as plain data: every register, table, queue, buffer, counter,
mode and pin the spec gives it, the outcomes of a command that has no effect of its own, and the state
at power-on. A map is an association list; a key that is not listed holds the reset value of its kind.
Log entries name every value here that the spec does not give. -/

namespace Sys2Proof.Machine

/-! ## Memory -/

/-- Memory as a list of cells in canonical form: addresses strictly rising, no cell that holds the
value 0, which an unlisted address reads as (DESIGN CHOICE, log entry 2). -/
abbrev Mem := List Host.Cell

/-- Addresses strictly rising from `lo`, and no zero byte listed. -/
def Mem.wfFrom (lo : Nat) : Mem → Bool
  | [] => true
  | (a, v) :: r => decide (lo ≤ a) && decide (v ≠ 0#8) && wfFrom (a + 1) r

/-- The canonical form. -/
def Mem.wf (m : Mem) : Bool := Mem.wfFrom 0 m

/-! ## Accesses -/

/-- Operations on a sync word (R179). -/
inductive SyncOp where
  | read
  | set (v : Word)
  | add (v : Int)
  | swap (v : Word)
  | cas (cmp v : Word)
deriving DecidableEq, Repr

/-- The atomic operations of the RISC-V A extension (R169). -/
inductive AmoOp where
  | swap | add | xor | and | or | min | max | minu | maxu
deriving DecidableEq, Repr

/-- What an issuer asks of an address, before the address says which kind of home it has. -/
inductive Acc where
  /-- A load of n bytes; `lr` marks a load-reserved. -/
  | load (n : Nat) (lr : Bool)
  | store (bs : List Byte)
  | amo (op : AmoOp) (width : Nat) (v : Nat)
  | sc (width : Nat) (v : Nat)
  | sync (op : SyncOp)
  | put (v : Word)
  | take
  | launch (v : Word)
  /-- A RoCE atomic on plain memory: FETCH_ADD, or CMP_SWAP with its comparand (R371). -/
  | fetchAdd (v : Word)
  | cmpSwap (cmp v : Word)
deriving DecidableEq, Repr

/-- An answer: data, or the number of the event that ended the access (R454). -/
inductive Resp where
  | ok (data : List Byte)
  | err (code : Nat)
deriving DecidableEq, Repr

/-- What holds a request that has reached the device's own crossings (R31, R274, R281, R284). -/
inductive Gate where
  | polder (p : Nat)
  | channel (k pc : Nat)
  /-- The edge ports of a stack whose overflow pool is full (R262). -/
  | stack (k : Nat)
  /-- The request is lost at a reset: its issuer waits for an answer that never comes (R418). -/
  | lost
deriving DecidableEq, Repr

/-- A request held at a gate, oldest first in `State.held`, with the t_dry that it keeps; none when bulk (R215). -/
structure Held where
  gate : Gate
  req : Req
  acc : Acc
  cls : MemClass
  tdry : Option Int := none
deriving DecidableEq, Repr

/-- An outstanding request to another device (R297, R318); `via` is the port of a fan-out write, which is
not routed (R309). -/
structure OutReq where
  id : Nat
  dst : Nat
  opc : Nat
  t0 : Nat
  who : Issuer
  addr : Nat
  ordered : Bool
  cont : Cont
  via : Option Nat := none
deriving DecidableEq, Repr

/-- An answer that waits until no mirrored copy of its write is outstanding (R312). -/
structure Deferred where
  id : Nat
  req : Req
  resp : Resp
deriving DecidableEq, Repr

/-- An image or descriptor whose read waits at a crossing or for a pseudo-channel: a mask load, a routing image, a tag
descriptor of stack k. -/
inductive Image where
  | mask (v : Nat)
  | route (src : Nat)
  | tag (k desc : Nat)
deriving DecidableEq, Repr

/-! ## Outputs -/

/-- The payload of a TMP response (R379, R446). Where no rule lays out its bytes, it stands as its fields.
(DESIGN CHOICE, log entry 38) -/
inductive TmpPayload where
  | bytes (bs : List Byte)
  | context (x : QpArgs)
  /-- SEC_FW_STATUS, and for slots A and B the cause, version word and SVN of the last check. -/
  | fwStatus (status : Nat) (a b : Nat × Nat × Nat)
  /-- Part code, base and metal stepping, CHIP_FW_VER, DEVICE_ID and the certificate. -/
  | identity (part base metal fwVer deviceId : Nat) (certificate : List Byte)
deriving DecidableEq, Repr

/-- A TMP response (R379): MAGIC and VERSION are constants, LENGTH is that of the payload. -/
structure TmpResp where
  opcode : Nat
  seq : Nat
  status : Nat
  /-- Bytes 12–13: the index of a failed entry, or the cause of a refused firmware request. -/
  index : Nat
  payload : TmpPayload
deriving DecidableEq, Repr

/-- What the device sends (newest first in `State.sent`). -/
inductive Msg where
  /-- A flit handed to a fabric link, idle or not (R290). -/
  | flit (port half : Nat) (bytes : List Byte)
  /-- ARP answer: target IP, MAC and the requester. -/
  | arp (ip mac toIp toMac : Nat)
  /-- Neighbour advertisement. -/
  | neighbour (ip mac toIp : Nat)
  /-- RoCE acknowledgement: local QPN's remote QPN, PSN, 0 ACK, else the NAK kind. -/
  | ack (qpn psn nak : Nat)
  /-- RoCE read response packet. -/
  | readResponse (qpn psn : Nat) (data : List Byte)
  /-- RoCE atomic response. -/
  | atomicResponse (qpn psn : Nat) (old : Word)
  /-- A PFC pause for a priority (R366). -/
  | pfc (prio : Nat)
  /-- Congestion notification. -/
  | cnp (qpn : Nat)
  /-- TMP response datagram to an address and port. -/
  | tmp (ip port : Nat) (r : TmpResp)
  /-- Event datagram. -/
  | events (ip port : Nat) (bytes : List Byte)
  /-- The answer to a PMBus command. -/
  | pmbus (bytes : List Byte)
deriving DecidableEq, Repr

/-! ## Register pages (14) -/

/-- A pending copy of a register's RWB fields: the mask of the fields written, their values, and whether
APPLY has released it (R394, R397). -/
structure Pend where
  mask : Nat
  val : Nat
  released : Bool
deriving DecidableEq, Repr

/-- A shadow or stage entry: issuer, register offset, held half (R391, R392). -/
structure Half where
  who : Issuer
  off : Nat
  val : Nat
deriving DecidableEq, Repr

/-- One register page (R390 to R406). -/
structure Page where
  /-- Applied and RW values that differ from the reset value. -/
  vals : List (Nat × Nat) := []
  pend : List (Nat × Pend) := []
  hold : Bool := false
  crcNow : Nat := 0
  crcCount : Nat := 0
  drift : Bool := false
  skipped : Bool := false
  /-- A mismatch has been found since the last of R406's three points. -/
  mismatch : Bool := false
  /-- The window of dike ticks compared last (R405), plus one. -/
  compared : Nat := 0
  /-- Sequence number of the latest raise of each local event (R401). -/
  evSeq : List (Nat × Nat) := []
  evAck : Nat := 0
  /-- Records logged in the current window, per local event (R462). -/
  evCount : List (Nat × Nat) := []
  shadows : List Half := []
  stages : List Half := []
deriving DecidableEq, Repr

/-! ## Events (17) -/

/-- A raise at a collector input (R461). -/
structure Raise where
  page : PageId
  code : Nat
  time : Nat
  detail : Nat
deriving DecidableEq, Repr

/-- An event record (R458). -/
structure EvRec where
  seq : Nat
  time : Nat
  code : Nat
  page : Nat
  detail : Nat
  /-- Tick at which it was logged (R383). -/
  logged : Nat
deriving DecidableEq, Repr

/-- The event collector (R460 to R464). -/
structure Collector where
  /-- The five inputs, each oldest first. -/
  inputs : List (List Raise) := [[], [], [], [], []]
  pointer : Nat := 0
  next : Nat := 1
  oldest : Nat := 1
  sent : Nat := 1
  /-- The records of the log, newest first, each with its slot. -/
  log : List EvRec := []
  dropped : Nat := 0
  sramSeep : Nat := 0
  window : Nat := 0
  /-- The dike tick in which heads were logged last (R461). -/
  loggedIn : Option Nat := none
  /-- Local address of the page that last raised CONFIG_DRIFT (R409). -/
  driftLast : Nat := 0
deriving DecidableEq, Repr

/-! ## Stewards, bollards, knots (07) -/

/-- Steward states (R173). -/
inductive StwState where
  | idle | run | halt
deriving DecidableEq, Repr

/-- What a steward waits for. -/
inductive StwWait where
  | nothing
  /-- The answer of the access it has issued: length of the instruction, the address accessed, and the
  exception with which a failure ends. -/
  | access (len addr cause : Nat)
  /-- A line of instructions from another home. -/
  | fetch (line : Nat)
  /-- WRS.NTO, or WRS.STO, since a tick (R181). -/
  | wrs (sto : Bool) (t0 : Nat)
deriving DecidableEq, Repr

/-- The cycle counter of a steward (R171): the fewest and the most cycles it can have counted up to the tick `since`
(none: its reset), the last value read, and whether its clock is stopped. -/
structure StwCycles where
  lo : Nat := 0
  hi : Nat := 0
  last : Nat := 0
  since : Option Nat := none
  stopped : Bool := false
deriving DecidableEq, Repr

/-- A steward (R168 to R174, R181). -/
structure Steward where
  st : StwState := .idle
  pc : Word := 0
  /-- x0 to x31; x0 is never written. -/
  x : List Word := List.replicate 32 0
  user : Bool := false
  /-- CSRs that differ from their reset value, by number. -/
  csr : List (Nat × Nat) := []
  cause : Nat := 0
  haltPc : Nat := 0
  msip : Bool := false
  /-- Armed monitor: hall address and fired mark (R181). -/
  monitor : Option (Nat × Bool) := none
  wait : StwWait := .nothing
  /-- A write of CORE_STW_CTL is waiting for the access in progress (R174). -/
  stopping : Bool := false
  /-- Lines of the instruction cache: hall address of the line and its 64 B, most recent first. -/
  icache : List (Nat × List Byte) := []
  instret : Nat := 0
  cycles : StwCycles := {}
  /-- The access in progress is an LR.D on another device's alias, which disarms the monitor as it reads (R181). -/
  lrAway : Bool := false
deriving DecidableEq, Repr

/-- A waiting bollard operation (R185). -/
structure BolWait where
  n : Nat
  /-- The value of a PUT; none for a TAKE. -/
  val : Option Word
  t0 : Nat
  req : Req
  /-- A TAKE on bollard 0 that arrived after the standing TAKE of the IDLE steward (R186). -/
  younger : Bool := false
deriving DecidableEq, Repr

/-- The bollards of a core (R184 to R186). -/
structure Bollards where
  /-- Full bollards and their values. -/
  full : List (Nat × Word) := []
  /-- Waiting operations, oldest first. -/
  waits : List BolWait := []
deriving DecidableEq, Repr

/-- A chip knot slot (R187 to R191). -/
structure ChipSlot where
  /-- Members, ascending core numbers. -/
  mask : List Nat := []
  gen : Nat := 0
  arrived : List Nat := []
  timedOut : Bool := false
  bound : Bool := false
  t0 : Nat := 0
  /-- The watchdog in force for the pending generation (R191). -/
  wdog : Nat := 0
deriving DecidableEq, Repr

/-- What has reached the knot table in the present dike tick (R188): an arrival of core c at slot k in a generation, or a
KNOT_CMD. -/
inductive KnotIn where
  | arrive (c k gen : Nat)
  | cmd (v : Nat)
deriving DecidableEq, Repr

/-- A hall knot slot (R192, R193). -/
structure HallSlot where
  mask : List Nat := []
  gen : Nat := 0
  count : Nat := 0
  pending : Bool := false
  timedOut : Bool := false
  sent : Bool := false
  /-- This device has arrived in the generation. -/
  self : Bool := false
  t0 : Nat := 0
  /-- The watchdog in force for the pending generation (R191). -/
  wdog : Nat := 0
deriving DecidableEq, Repr

/-! ## HBM stacks (10) -/

/-- A line of the memory-side cache: line index (stack offset / 128) and state (R264 to R268). -/
structure Line where
  idx : Nat
  dirty : Bool
  prot : Bool
  /-- Poisoned sectors of the line, 0 to 3. -/
  poison : List Nat
  data : List Byte
deriving DecidableEq, Repr

/-- Activities of the maintenance arbiter (R281). -/
inductive Maint where
  | retrain | migration | repair | calibration | scrub
deriving DecidableEq, Repr

/-- Error counts of a pseudo-channel in the window (R273). -/
structure PcCount where
  corr : Nat := 0
  uncorr : Nat := 0
  link : Nat := 0
deriving DecidableEq, Repr

/-- A stack (R259 to R286). -/
structure Stack where
  /-- Lines of the memory-side cache, most recently used first. -/
  lines : List Line := []
  /-- Poisoned 32 B sectors in HBM, by stack offset / 32. -/
  poison : List Nat := []
  counts : List (Nat × PcCount) := []
  /-- Errors in HBM or in the cache that no read has met yet (R268, R271). (DESIGN CHOICE, log entry 10) -/
  upsets : List HbmFind := []
  /-- Pseudo-channels in which an error has been found since the limits were last looked at, and whether it was one of
  the interface (R273). -/
  due : List (Nat × Bool) := []
  /-- The controller's tie pointer among its sources (R261). -/
  srcPtr : Nat := 0
  /-- The error window the counts belong to (R273). -/
  window : Nat := 0
  /-- 0 active, 1 one pseudo-channel retired or migrating, 2 retired, 3 BRINGUP. -/
  state : Nat := 0
  /-- Retired or migrating pseudo-channel. -/
  outPc : Option Nat := none
  migrating : Bool := false
  copyPtr : Nat := 0
  /-- The running activity and its pseudo-channel. -/
  maint : Option (Maint × Nat) := none
  /-- Activities waiting or preempted, with their pseudo-channel. -/
  waiting : List (Maint × Nat) := []
  /-- Retrain in hold: attempts made. -/
  attempts : Nat := 0
  token : Bool := false
  seep : Nat := 0
  errLast : Nat := 0
  scrubNext : Nat := 0
  repairState : Nat := 0
  repairOp : Nat := 0
  softUsed : Nat := 0
  /-- Rows soft-repaired, rows hard-repaired, lanes remapped, each as the command word's location. -/
  softRows : List Nat := []
  hardRows : List Nat := []
  lanes : List Nat := []
  busy : Bool := false
  /-- Running cache command: 1 write back, 2 write back and invalidate, 3 partition write-back, 4 BRINGUP. -/
  mscCmd : Nat := 0
  /-- The next set that the running MSC_CMD passes (R269). -/
  mscSet : Nat := 0
  hits : Nat := 0
  misses : Nat := 0
  instr1500 : Nat := 0
  /-- The last word shifted into the wrapper. -/
  data1500 : Nat := 0
  /-- Trainings failed in the current start (R440). -/
  trainFails : Nat := 0
  /-- The pseudo-channels repaired in BRINGUP that retrain before the return to service, and those of a stack that
  returns that have not yet (R284). -/
  retrainOnReturn : List Nat := []
  returning : List Nat := []
deriving DecidableEq, Repr

/-! ## Fabric (11) -/

/-- A packet with the t_dry it travels with; none when bulk (R214, R296). -/
structure Queued where
  pkt : Packet
  tdry : Option Int
  /-- Input: port 0 to 15, gateway 16 to 19. -/
  input : Nat
  /-- Bound to the port it waits at, whatever becomes of it: a management packet, or a write or answer of a fan-out tree
  (R307, R309, R316). -/
  bound : Bool
deriving DecidableEq, Repr

/-- A link: a full port, or one half of a split port (R289 to R293, R314). -/
structure Link where
  /-- 0 disabled, 1 down, 2 training, 3 up, 4 held for retrain, 5 retired, 6 management only. -/
  state : Nat := 1
  neighbour : Option (Nat × Nat) := none
  /-- SEQ of the next flit sent. -/
  txSeq : Nat := 0
  /-- Sent flits not yet acknowledged, oldest first: SEQ, bytes, replays in succession. -/
  replay : List (Nat × List Byte × Nat) := []
  /-- Packets with a flit not yet acknowledged: SEQ of the last flit, packet. -/
  flight : List (Nat × Packet) := []
  /-- SEQ expected next, and whether a flit has been accepted (R290). -/
  rxSeq : Nat := 0
  accepted : Bool := false
  nakSent : Bool := false
  /-- Credits held per virtual lane. -/
  credits : List Nat := [0, 0, 0, 0, 0]
  /-- Tick at which each lane's stall interval began: a credit's return, its last credit's use, or the first packet that
  waits (R293); and whether its stall has been raised. -/
  creditAt : List Nat := [0, 0, 0, 0, 0]
  stalled : List Bool := [false, false, false, false, false]
  /-- Packets waiting to be sent, oldest first. -/
  queue : List Queued := []
  /-- The link's tie pointer (R296). -/
  ptr : Nat := 0
  /-- Bytes of a packet being received. -/
  partialRx : List Byte := []
  /-- Whole packets received and not yet worked on. -/
  rx : List Packet := []
  /-- The ticks at which they arrived, in the same order (R214). -/
  rxAt : List Nat := []
  attempts : Nat := 0
  /-- Lanes that failed every attempt of the running retrain so far. -/
  failedLanes : List Nat := []
deriving DecidableEq, Repr

/-- A fabric port. -/
structure FPort where
  link0 : Link := {}
  link1 : Link := {}
  dead : List Nat := []
  split : Bool := false
  /-- 0 full, 1 lanes 0–3, 2 lanes 4–7. -/
  mode : Nat := 0
  uncorr : List (Nat × Nat) := []
  /-- The error window that `uncorr` belongs to (R315). -/
  window : Nat := 0
  corrSym : Nat := 0
  retry : Nat := 0
deriving DecidableEq, Repr

/-- A fan-out write of another member that this device has forwarded (R309): arrival port, requester,
its REQ_ID and the first error so far. -/
structure Relay where
  id : Nat
  port : Nat
  dst : Nat
  reqId : Nat
  status : Nat
deriving DecidableEq, Repr

/-- The fan-out descriptor that runs (R310): its words, the ports it goes to and whether this device writes
too, as its start found them (R355), the first error, the bytes sent, and whether its signal is under way. -/
structure FanRun where
  words : List Nat
  ports : List Nat
  here : Bool
  status : Nat := 0
  sent : Nat := 0
  signalled : Bool := false
deriving DecidableEq, Repr

/-- The FAB page's unit: routing table, outstanding requests, fan-out unit, mirror state. -/
structure Fab where
  /-- Routing entries that are not zero. -/
  route : List (Nat × Nat) := []
  routeState : Nat := 0
  /-- FAB_ROUTE_STATUS.CRC. -/
  routeCrc : Nat := 0
  outs : List OutReq := []
  nextId : Nat := 0
  /-- Requests that wait at their gateway for a free identifier (R297). -/
  gateway : List (OutReq × Queued) := []
  /-- Ordered requests held for a change of their eligible set (R300). -/
  repin : List Queued := []
  /-- The eligible ports that ordered traffic to a destination last used. -/
  pinned : List (Nat × List Nat) := []
  tie : Nat := 0
  /-- The tie pointers of the four gateway outputs (R296). -/
  gatePtr : List Nat := [0, 0, 0, 0]
  fanQueue : List Nat := []
  fanRun : Option FanRun := none
  fanDone : Nat := 0
  fanErr : Nat := 0
  relays : List Relay := []
  suspended : List Nat := []
  cfgErr : List Nat := []
  deferred : List Deferred := []
deriving DecidableEq, Repr

/-! ## Host port (13) -/

/-- A RoCE request accepted by its queue pair (R372, R373): its PSN, whether it repeats an earlier one, and
whether it counts as outstanding. -/
structure RoceReq where
  op : RoceOp
  psn : Nat
  dup : Bool
  counted : Bool
  pkt : RocePkt
deriving DecidableEq, Repr

/-- A queue-pair context (R368, R373, R376, R380). -/
structure Qp where
  /-- 0 RESET, 1 RTR, 2 RTS, 3 ERROR. -/
  state : Nat := 0
  remoteQpn : Nat := 0
  /-- PSN expected next. -/
  psn : Nat := 0
  v6 : Bool := false
  remoteIp : Nat := 0
  mac : Nat := 0
  mtu : Nat := 0
  dscp : Nat := 0
  pcp : Nat := 0
  maxOut : Nat := 1
  nakSent : Bool := false
  /-- Results of the last 32 atomics, newest first: PSN and original value. -/
  atomics : List (Nat × Word) := []
  /-- WRITE message in progress: next hall address, bytes left. -/
  msg : Option (Nat × Nat) := none
  /-- Requests that wait behind an earlier one, oldest first. -/
  waiting : List RoceReq := []
  /-- The request being performed, the bytes of it that are done, and the data read so far. -/
  serving : Option RoceReq := none
  doneBytes : Nat := 0
  data : List Byte := []
  /-- Reads and atomics of this queue pair outstanding. -/
  outstanding : Nat := 0
  lastCnp : Option Nat := none
  /-- DCQCN (R376): current and target rate in kb/s, α in units of 2^−16, increase steps by timer and by
  bytes, tick of the last timer, response bytes counted. -/
  rc : Nat := 800000000
  rt : Nat := 800000000
  alpha : Nat := 65536
  steps : Nat := 0
  byteSteps : Nat := 0
  cnpSeen : Bool := false
  timerAt : Nat := 0
  bytes : Nat := 0
  /-- The time from which its rate allows the next read response, in units of 1/1,000 of a dike tick. -/
  rateAt : Nat := 0
deriving DecidableEq, Repr

/-- A frame that waits for the transmit arbiter (R377): its priority, its local QPN (0 where it has none),
the frame. -/
structure Tx where
  prio : Nat
  qpn : Nat
  msg : Msg
deriving DecidableEq, Repr

/-- A host region (R369, R379). -/
structure Region where
  base : Nat := 0
  length : Nat := 0
  key : Nat := 0
  rights : Nat := 0
  en : Bool := false
deriving DecidableEq, Repr

/-- A TMP message whose entries are being served (R379): its number, requester, SEQ, whether it writes, its
entries (address, width, value), the next of them, and what has been read. -/
structure TmpRun where
  id : Nat
  ip : Nat
  port : Nat
  seq : Nat
  write : Bool
  entries : List (Nat × Nat × Nat)
  index : Nat := 0
  out : List Byte := []
deriving DecidableEq, Repr

/-- The host port. -/
structure Eth where
  mac : Nat := 0
  ipv4 : Nat := 0
  ipv6 : Nat := 0
  link : Nat := 0
  downs : Nat := 0
  dropped : Nat := 0
  denied : Nat := 0
  /-- The denial window in which TMP_DENIED was raised last, numbered from 1; 0 none (R382). -/
  deniedWindow : Nat := 0
  paused : List Nat := []
  qps : List (Nat × Qp) := []
  regions : List (Nat × Region) := []
  /-- Reads and atomics outstanding (R375). -/
  outstanding : Nat := 0
  /-- Kept TMP responses, newest first: address, port, SEQ, response (R382). -/
  kept : List (Nat × Nat × Nat × TmpResp) := []
  runs : List TmpRun := []
  nextRun : Nat := 0
  /-- RoCE packets that wait in the PRIO_A ingress buffer, oldest first (R375). -/
  ingress : List (RoceOp × Frame × RocePkt) := []
  /-- TMP requests that wait in the PRIO_B ingress buffer, oldest first (R366). -/
  ingressB : List (TmpReq × Frame × List Byte) := []
  /-- Frames that wait for the transmit arbiter (R366, R377), oldest first. -/
  txHeld : List Tx := []
  /-- The QPN after the last winner among ACKs, NAKs and CNPs, and among read responses (R377). -/
  ackPtr : Nat := 0
  readPtr : Nat := 0
  /-- Event destination: IPv6?, address, port, MAC, enabled (R383). -/
  destV6 : Bool := false
  destIp : Nat := 0
  destPort : Nat := 0
  destMac : Nat := 0
  destEn : Bool := false
deriving DecidableEq, Repr

/-! ## Dike, power, start-up, module (15, 16, 18) -/

/-- A polder (R420 to R424). -/
structure Polder where
  /-- 0 ACTIVE, 1 DRAINING, 2 DRAINED, 3 WAKING. -/
  state : Nat := 0
  wakes : Nat := 0
  /-- The latest tick at which a core of it was not quiescent (R421). -/
  busyAt : Nat := 0
  drainAsked : Bool := false
  /-- The wake event: tick and cause code. -/
  wake : Option (Nat × Nat) := none
  granted : Bool := false
  /-- Registered t_dry minus WAKE_LEAD ticks (R216): tick, core and context. -/
  leads : List (Int × Nat × Nat) := []
  /-- Knot releases that reached it while it was not ACTIVE: slot, members, cancel (R189). -/
  knots : List (Nat × List Nat × Bool) := []
deriving DecidableEq, Repr

/-- The sluice. -/
structure Slu where
  polders : List (Nat × Polder) := []
  wakeLast : Nat := 0
  /-- Scheduled resets: domain, target, tick (R417). -/
  resets : List (Nat × Nat × Nat) := []
  /-- The tick of the latest grants, and the polders admitted in it (R424). -/
  grantAt : Nat := 0
  grants : Nat := 0
deriving DecidableEq, Repr

/-- The governor (R425 to R429). -/
structure Gov where
  /-- The cap of the current window, and whether a window has begun since the reset: before the first one
  there is no previous window's cap (R429). -/
  capEff : Nat := 0
  begun : Bool := false
  mxDuty : Nat := 256
  vxDuty : Nat := 256
  bulkDuty : Nat := 256
  dlDuty : Nat := 256
  base : Nat := 0
  meas : Nat := 0
  throttleWin : Nat := 0
  debt : Int := 0
  /-- COOL_ID in force, the code that is counting, windows it has held. -/
  cool : Nat := 7
  coolCount : Nat := 0
  coolNew : Nat := 7
  therm : Bool := false
  /-- Consecutive windows of R428. -/
  starved : Nat := 0
  window : Nat := 0
  /-- Readings of the window before, for the duties two windows on. -/
  last : GovReadings := ⟨0, 7, 0, 0, 0, 0, 0⟩
deriving DecidableEq, Repr

/-- Start-up and trust (R433 to R452). -/
structure Sec where
  /-- 0 OFF, 1 BOOT, 2 TRAIN, 3 INIT, 4 READY, 5 DEGRADED, 6 SAFE. -/
  state : Nat := 1
  /-- 0 cold, 1 warm, 2 escalated warm. -/
  kind : Nat := 0
  t0 : Nat := 0
  readyT : Nat := 0
  restarts : Nat := 0
  causeA : Nat := 1
  causeB : Nat := 1
  mismatch : Bool := false
  reloaded : Bool := false
  /-- Sampled SEC_BOOT_CFG (R438). -/
  sampReload : Bool := false
  sampZero : Bool := false
  fwVer : Nat := 0
  /-- Fuses. -/
  svn : Nat := 0
  keySet : Bool := false
  keyHash : List Byte := []
  serial : Nat := 0
  baseStep : Nat := 0
  metalStep : Nat := 0
  idOk : Bool := false
  /-- Slot the boot ROM tries next, and slots that failed with the watchdog. -/
  slot : Nat := 0
  failSlots : List Nat := []
  /-- Batch of trainings or checks that runs: 0 and 1 first pass, then the passes of R440 and R441. -/
  batch : Nat := 0
  escalated : List Nat := []
  /-- The body the running image has in warden memory, its header and the kept digest (R445). -/
  runHeader : List Byte := []
  digest : List Byte := []
  /-- A chip reset is held (RESET_N low), or began during a start (R439). -/
  inReset : Bool := false
  coldAgain : Bool := false
  /-- Firmware update (R446 to R449). -/
  fwState : Nat := 0
  fwSlot : Nat := 0
  fwCause : Nat := 0
  fwSize : Nat := 0
  fwBytes : Nat := 0
  /-- Byte ranges of the slot programmed in the current update: offset and length. -/
  fwDone : List (Nat × Nat) := []
  /-- Slots that the last load from flash has not checked, or erased since their last check (R447). -/
  erased : List Nat := []
  /-- Result of each slot's last check: slot, cause, version word, SVN. -/
  slotInfo : List (Nat × Nat × Nat × Nat) := []
  activateAt : Option Nat := none
  /-- The quote being built: requester, nonce, start tick; and waiting ATTESTs (R451). -/
  quote : Option (Nat × Nat × Nat × List Byte × Nat) := none
  attests : List (Nat × Nat × Nat × List Byte) := []
  /-- Flash log: retired stacks, retired pseudo-channels, migrating ones, soft repairs, lane remaps. -/
  logStacks : List Nat := []
  logPcs : List (Nat × Nat) := []
  logMigrating : List (Nat × Nat) := []
  logSoft : List (Nat × Nat) := []
  logLanes : List (Nat × Nat) := []
  /-- Copy pointers kept in warden memory (R280). -/
  keptPtrs : List (Nat × Nat) := []
  /-- Training results of the stacks and their CRC-32C, kept in warden memory (R436). The spec lays them out nowhere:
  they stand apart from its addressed bytes. (DESIGN CHOICE, log entry 73) -/
  trained : List (Nat × Nat × Nat) := []
deriving DecidableEq, Repr

/-- The module (R472 to R482). -/
structure Module where
  /-- 0 unpowered, 1 standby, 2 supplies ramping, 3 running. -/
  power : Nat := 3
  vin : Bool := true
  vinSince : Nat := 0
  pwrEn : Bool := true
  enLowSince : Nat := 0
  /-- PWR_EN had been low long enough, and no sensor near its trip, at the last rise (R477, R482). -/
  enOk : Bool := true
  mated : Bool := true
  resetN : Bool := true
  straps : Nat := 7
  thermAlertN : Bool := true
  boardAlert : Bool := false
  tripN : Bool := true
  pmbAlertN : Bool := true
  pmbAddr : Nat := 3
  /-- Latched PMBus status: STATUS_INPUT, STATUS_TEMPERATURE, STATUS_CML. -/
  stInput : Nat := 0
  stTemp : Nat := 0
  stCml : Nat := 0
  tele : Telemetry := ⟨0, 0, 0, 0, 0, 0⟩
  /-- Last reading of each sensor group, °C. -/
  sensors : List Int := [0, 0, 0]
  /-- Module time in dike-tick units, which runs without PWR_GOOD too. -/
  time : Nat := 0
deriving DecidableEq, Repr

/-! ## Cores -/

/-- The staging buffer and counters of an engine port (R176). -/
structure Port where
  stage : List Word := List.replicate 16 0
  pushed : Nat := 0
  done : Nat := 0
  /-- The command coil: records as their words, oldest first (R175). -/
  coil : List (List Word) := []
  /-- READ of the command coil, which BELAY and RELEASE follow (R248). -/
  read : Nat := 0
deriving DecidableEq, Repr

/-- A record in the arrays (R72, R78): its words, a number, the next tile set to fill and the next to pass,
counted in the record's order. -/
structure MxRun where
  words : List Word
  seq : Nat
  fillAt : Nat := 0
  passAt : Nat := 0
deriving DecidableEq, Repr

/-- A tile set in the shadows (R73): value plane, code plane and used side-list entries (INDEX, VALUE) of
each of its tiles, array by array. -/
structure TileSet where
  at' : Nat
  tiles : List (List Byte × List Byte × List (Nat × Nat))
deriving DecidableEq, Repr

/-- The side lists of a tile set whose entries are not yet applied (R84). -/
structure SidePend where
  words : List Word
  seq : Nat
  at' : Nat
  lists : List (List (Nat × Nat))
deriving DecidableEq, Repr

/-- A tally element: its S32 value and its overflow bit (R50). -/
structure TallyEl where
  v : Int := 0
  ovf : Bool := false
deriving DecidableEq, Repr

/-- A finished block that is not yet drained (R79): its record and number, the block, its tally by row and
output column. -/
structure MxDrain where
  words : List Word
  seq : Nat
  block : Nat
  tally : List (List TallyEl)
deriving DecidableEq, Repr

/-- A counter of arithmetic cycles whose place within a dike tick no rule gives (R96, R146): the fewest and the
most cycles of the intervals that have ended, the last value read, and the tick at which the present interval began. -/
structure CycleCount where
  lo : Nat := 0
  hi : Nat := 0
  last : Nat := 0
  since : Option Nat := none
deriving DecidableEq, Repr

/-- The matrix arrays (R87 to R91). -/
structure Arrays where
  staged : Option (List Word) := none
  t0 : Nat := 0
  /-- SYNC_WAIT_TIMEOUT has been raised for the wait. -/
  late : Bool := false
  run : Option MxRun := none
  /-- A record whose last pass has run and that is not complete. -/
  fin : Option MxRun := none
  shadow : Option TileSet := none
  tally : List (List TallyEl) := []
  /-- The side store: FP32 sums by row and output column, and the columns that have entries. -/
  sums : List (List Nat) := []
  cols : List Nat := []
  pend : List SidePend := []
  drain : Option MxDrain := none
  /-- The hold record whose tally awaits a TALLY_IN record (R81). -/
  held : Option (List Word) := none
  /-- The record that has raised TALLY_OVF. -/
  ovfSeq : Option Nat := none
  halt : Bool := false
  /-- The records that have faulted since the last restart, by number (R91). -/
  faulted : List Nat := []
  seq : Nat := 0
  tag : Nat := 0
  /-- Cycles with a broadcast (R96). -/
  broadcast : Nat := 0
deriving DecidableEq, Repr

/-- The side path as an executor (R85, R86). -/
structure SidePath where
  staged : Option (List Word) := none
  t0 : Nat := 0
  late : Bool := false
  run : Option (List Word) := none
  /-- The record's output has been written. -/
  written : Bool := false
  halt : Bool := false
  tag : Nat := 0
deriving DecidableEq, Repr

/-- The SFU's memories and load queue (R155, R158, R161 to R166): descriptors as their two words, segments
by index, programs as 24 words of 32 bits. -/
structure Sfu where
  tables : List (Nat × (Nat × Nat)) := []
  segs : List (Nat × (Nat × Nat × Nat)) := []
  progs : List (Nat × List Nat) := []
  queue : List Word := []
  errSlot : Nat := 0
  errProg : Bool := false
  errCause : Nat := 0
deriving DecidableEq, Repr

/-- A chain record in the vector engine: the next row, what is left of the entry of each input coil, what
an output coil's entry holds so far, the states of its scan, and since when a row is held at a coil (R251).
`began` gives READ of each coil it reads as it began, `next` where the next record began reading such a coil. -/
structure VRun where
  words : List Word
  row : Nat := 0
  left : List (Nat × List Byte) := []
  out : List (Nat × List Byte) := []
  scan : List Nat := []
  hold : Option Nat := none
  late : Bool := false
  began : List (Nat × Nat) := []
  next : List (Nat × Nat) := []
deriving DecidableEq, Repr

/-- The held carry (R139): along rows, and its FP32 states. -/
structure Carry where
  along : Bool
  states : List Nat
deriving DecidableEq, Repr

/-- The vector engine (R143, R145). -/
structure VecEng where
  staged : Option (List Word) := none
  t0 : Nat := 0
  /-- SYNC_WAIT_TIMEOUT has been raised for the wait. -/
  late : Bool := false
  run : Option VRun := none
  /-- A record whose last row has passed and that is not complete. -/
  fin : Option VRun := none
  halt : Bool := false
  /-- CORE_VX_FAULT without VALID, while it is set. -/
  fault : Option Nat := none
  carry : Option Carry := none
  tag : Nat := 0
deriving DecidableEq, Repr

/-- A data coil: its pointers modulo 2^(k+1), the steward's place in its current entries, CFG_ERR
(R248, R253, R255). -/
structure Coil where
  read : Nat := 0
  write : Nat := 0
  belay : Nat := 0
  release : Nat := 0
  rdOff : Nat := 0
  wrOff : Nat := 0
  cfgErr : Bool := false
deriving DecidableEq, Repr

/-- A request of a strand that is not complete: its number, first position, elements, block, and whether
it reads (R200, R211). -/
structure Job where
  id : Nat
  pos : Nat
  n : Nat
  block : Nat
  read : Bool
  /-- The index that its item was issued with, and the hall address it names (R223, R226). -/
  idx : Nat
  hall : Nat
  /-- The values that a held scatter-add adds to what it reads (R225). -/
  vals : List Nat
deriving DecidableEq, Repr

/-- The tile that a braided or compressing strand is collecting (R221, R239): its first position, the
number of its next read, the elements that have arrived by position, the runs written. -/
structure Tile where
  first : Nat
  next : Nat := 0
  elems : List (Nat × Nat) := []
  runs : Nat := 0
deriving DecidableEq, Repr

/-- A strand context (R198 to R212, R226, R232). -/
structure Ctx where
  /-- The strand has started (R198): its wait has held and its release word has been read. -/
  started : Bool := false
  /-- 0 free, 1 waiting, 2 running, 3 ring wait, 4 halted. -/
  state : Nat := 0
  record : List Word := []
  shape : List Word := []
  tag : Nat := 0
  cause : Nat := 0
  addr : Nat := 0
  /-- Next position to issue, or the saved position of a halt. -/
  pos : Nat := 0
  /-- Tick at which its wait or ring wait began, and whether its event has been raised. -/
  t0 : Nat := 0
  late : Bool := false
  r0 : Int := 0
  released : Int := 0
  landed : Nat := 0
  tref : Int := 0
  lateBlock : Bool := false
  /-- Tick from which a ring wait or halt, or the last acknowledgement in it, keeps the stall interval from running (R231). -/
  pausedAt : Nat := 0
  addOvf : Bool := false
  stallAt : Nat := 0
  jobs : List Job := []
  nextJob : Nat := 0
  tile : Option Tile := none
deriving DecidableEq, Repr

/-- A store that waits for room in a command coil (R177): port, width, data and the request. -/
structure PushStall where
  port : Nat
  width : Nat
  val : Word
  req : Req
deriving DecidableEq, Repr

/-- A steward's access that waits at a data coil (R253): coil, the data of a store, since when, and the tick at which it
could first go on. -/
structure CoilWait where
  n : Nat
  val : Option Word
  t0 : Nat
  req : Req
  met : Option Nat := none
deriving DecidableEq, Repr

/-- A core (R16). -/
structure Core where
  stw : Steward := {}
  bol : Bollards := {}
  mx : Port := {}
  vx : Port := {}
  sx : Port := {}
  arr : Arrays := {}
  sid : SidePath := {}
  /-- CORE_MX_FAULT without VALID, while it is set (R96). -/
  mxFault : Option Nat := none
  /-- CORE_MX_ACTIVE_CYC and CORE_VX_ACTIVE_CYC (R96, R146). -/
  mxActive : CycleCount := {}
  vxActive : CycleCount := {}
  vec : VecEng := {}
  sfu : Sfu := {}
  ctx : List (Nat × Ctx) := []
  /-- The strand engine's tie pointer, and the context that holds the braid (R213, R243). -/
  ctxPtr : Nat := 0
  braid : Option Nat := none
  late : Nat := 0
  coils : List (Nat × Coil) := []
  /-- Coil memory, entry e at byte 64 × e; the command coils' entries are held as records. -/
  cmem : Mem := []
  stalls : List PushStall := []
  coilWait : Option CoilWait := none
  /-- Saturations: since reset, in the current window, the window, CALIB_DRIFT raised in it (R61, R62). -/
  satTotal : Nat := 0
  satCount : Nat := 0
  satWindow : Nat := 0
  satRaised : Bool := false
  pruned : Nat := 0
  seen : Nat := 0
  cancelled : Nat := 0
deriving DecidableEq, Repr

/-! ## Splice units (12) -/

/-- A splice packet that waits in the unit (R339): its request, whether it carries reports, its data, and
the port and packet whose credits return when it is taken. -/
structure SplWait where
  req : Req
  max : Bool
  data : List Byte
  ret : Option (Nat × Packet)
deriving DecidableEq, Repr

/-- An entry of the tag table (R329, R330). -/
structure Tag where
  tag : Nat
  /-- The sixteen words of its descriptor. -/
  words : List Nat
  /-- 1 ZEROING, 2 ROUND1, 3 FINISHING, 4 ROUND2, 5 DONE, 6 FAULTED. -/
  state : Nat := 1
  received : Nat := 0
  expect : Nat := 0
  cause : Nat := 0
  /-- The marks and the exponents of its blocks since the round-1 verdict (R345). -/
  marks : List Nat := []
  exps : List Int := []
  /-- Tick at which its round began, and whether SPLICE_TIMEOUT has been raised. -/
  t0 : Nat := 0
  late : Bool := false
  /-- The tick of the packet that completed the round. -/
  finAt : Option Nat := none
  /-- Within FINISHING: 0 before the verdict, 1 read-out, 2 signal, 3 PUT. -/
  phase : Nat := 0
  abort : Bool := false
  waiting : List SplWait := []
  /-- Order in which tags became DONE. -/
  doneAt : Nat := 0
deriving DecidableEq, Repr

/-- The send descriptor that runs (R337, R338): its words, the first error, whether its signal is under way, the header of
its sheet, the blocks still to send with their exponents, and the reports of the run of blocks so far. -/
structure SendRun where
  words : List Nat
  err : Nat := 0
  signalled : Bool := false
  head : List Byte := []
  todo : List (Nat × Int) := []
  run : List (Nat × Nat) := []
deriving DecidableEq, Repr

/-- The auxiliary command that runs (R360): its words, whether it has failed, and the group at which an expansion goes on
when a read that waits has been served. -/
structure AuxRun where
  words : List Nat
  bad : Bool := false
  next : Option Nat := none
deriving DecidableEq, Repr

/-- A splice unit (R323 to R360). -/
structure Spl where
  tags : List Tag := []
  /-- Lines of the splice partition, most recently used first (R343). -/
  part : List Line := []
  doneSeq : Nat := 0
  sends : List Nat := []
  send : Option SendRun := none
  sendDone : Nat := 0
  sendErr : Nat := 0
  sat : Nat := 0
  auxQueue : List Nat := []
  auxRun : Option AuxRun := none
deriving DecidableEq, Repr

/-! ## The machine -/

/-- A monitor registered at the home of a word (R181): the core, and the word's hall address as the
steward named it and its home key. -/
structure Mon where
  core : Nat
  key : Nat
deriving DecidableEq, Repr

/-- A wait on a sync word registered at its home (R182, R210): core, waiter (0 arrays, 1 side path,
2 vector engine, 8 + n strand context n), key of the word, threshold, the tick at which it was found to hold. -/
structure WaitReg where
  core : Nat
  waiter : Nat
  key : Nat
  thr : Int
  met : Option Nat
deriving DecidableEq, Repr

/-- Presence of pages (R228, R229, R234): local pages marked absent, the remote table, error counts. -/
structure Presence where
  absent : List Nat := []
  remote : List Nat := []
  errors : Nat := 0
  lastErr : Nat := 0
deriving DecidableEq, Repr

/-- The state of the module. -/
structure State where
  /-- Commands that wait, first in first out. -/
  pending : List Instr
  /-- The dike time counter (R413). -/
  now : Nat
  /-- The model's own field: draws of free values made (DESIGN CHOICE, log entry 5). -/
  freeCount : Nat
  sent : List Msg
  mem : Mem
  wmem : Mem
  flash : Mem
  cores : List (Nat × Core)
  hbmStacks : List (Nat × Stack)
  spl : List (Nat × Spl)
  ports : List (Nat × FPort)
  pages : List (PageId × Page)
  chipSlots : List (Nat × ChipSlot)
  hallSlots : List (Nat × HallSlot)
  fab : Fab
  eth : Eth
  evt : Collector
  slu : Slu
  gov : Gov
  sec : Sec
  module : Module
  pres : Presence
  held : List Held
  /-- Answers that wait at the crossing of a polder that is not ACTIVE (R423): polder, request, answer. -/
  parked : List (Nat × Req × Resp)
  knotIn : List KnotIn
  /-- Images whose reads wait, oldest first (R274, R416). -/
  images : List Image
  /-- Answers on their way to their issuers; empty between commands. -/
  answers : List (Req × Resp)
  /-- Words of core SRAM in error that no read has met yet (R36). (DESIGN CHOICE, log entry 10) -/
  bankFinds : List BankFind
  /-- LR reservations: core and aligned 8 B word (R169). -/
  resv : List (Nat × Nat)
  mons : List Mon
  waits : List WaitReg
deriving DecidableEq, Repr

/-- Reasons a step can stop with a fault. (DEDUCED, log entry 64) -/
inductive Fault where
  /-- No command raises it: every unmapped access has the effect R26 gives it. Safe. -/
  | unreachable
deriving DecidableEq, Repr

/-- Reasons a command has no meaning. -/
inductive Refusal where
  /-- Raised by the dispatch for a command whose meaning is not written yet. Safe. -/
  | notModelled (mnemonic : String)
deriving DecidableEq, Repr

/-- The module in the dike tick in which PWR_GOOD is asserted after power has been off: power-on reset
of every domain, a cold start at tick 0 (R413, R417, R434). (DESIGN CHOICE, log entry 4) (DESIGN CHOICE, log entry 8) -/
def State.reset : State :=
  { pending := [], now := 0, freeCount := 0, sent := [], mem := [], wmem := [], flash := []
    cores := [], hbmStacks := [], spl := [], ports := [], pages := [], chipSlots := [], hallSlots := []
    fab := {}, eth := {}, evt := {}, slu := {}, gov := {}, sec := {}, module := {}, pres := {}
    held := [], parked := [], knotIn := [], images := [], answers := [], bankFinds := [], resv := [], mons := [], waits := [] }

end Sys2Proof.Machine
end

