-- ==== Sys2Proof/Machine/Mem.lean ====
section
/-! DEFINITION. The operations on memory in its canonical form. An unlisted address reads as zero
(DESIGN CHOICE, log entry 2). -/

namespace Sys2Proof.Machine

/-- The byte at an address. -/
def Mem.get (m : Mem) (a : Nat) : Byte :=
  match m with
  | [] => 0
  | (b, v) :: r => if b = a then v else Mem.get r a

/-- The memory with one byte written. -/
def Mem.set (m : Mem) (a : Nat) (v : Byte) : Mem :=
  match m with
  | [] => if v = 0#8 then [] else [(a, v)]
  | (b, w) :: r =>
    if a < b then (if v = 0#8 then (b, w) :: r else (a, v) :: (b, w) :: r)
    else if a = b then (if v = 0#8 then r else (a, v) :: r)
    else (b, w) :: Mem.set r a v

/-- n bytes from a cell list that begins at or after address a. -/
def Mem.readFrom : Mem → Nat → Nat → List Byte
  | _, _, 0 => []
  | [], _, n + 1 => List.replicate (n + 1) 0
  | (b, v) :: r, a, n + 1 =>
    if b = a then v :: readFrom r (a + 1) n else 0 :: readFrom ((b, v) :: r) (a + 1) n

/-- n bytes from address a on. -/
def Mem.read (m : Mem) (a n : Nat) : List Byte := Mem.readFrom (m.dropWhile fun c => decide (c.1 < a)) a n

/-- The memory with bytes written from address a on. -/
def Mem.write (m : Mem) (a : Nat) : List Byte → Mem
  | [] => m
  | b :: bs => Mem.write (Mem.set m a b) (a + 1) bs

/-- The memory with every byte of [lo, hi) zero. -/
def Mem.clear (m : Mem) (lo hi : Nat) : Mem := m.filter fun c => decide (c.1 < lo) || decide (hi ≤ c.1)

end Sys2Proof.Machine
end

