-- ==== Sys2Proof/Machine/RegMap.lean ====
section
/-! DEFINITION. The register tables of the spec: for each page, every register's offset, the masks of
its fields by access code (R10) and its reset value. A bit in no mask is RO or reserved. Registers whose
value the block computes are read in the file of their block. -/

namespace Sys2Proof.Machine

/-- A register: masks of RWB, RW and WO fields, and the reset value of its stored fields. -/
structure RegDef where
  rwb : Nat
  rw : Nat
  wo : Nat
  rst : Nat
deriving DecidableEq, Repr

/-- All 64 bits. -/
def ones64 : Nat := 0xFFFFFFFFFFFFFFFF

/-- n registers of one layout at `base + step * i`. -/
def regArray (base step n : Nat) (d : RegDef) : List (Nat × RegDef) :=
  (upto n).map fun i => (base + step * i, d)

/-- A read-only register. -/
def ro : RegDef := ⟨0, 0, 0, 0⟩

/-- The common header (R390). CFG_CRC_REF resets to the CRC of the reset image, computed apart. -/
def headerRegs : List (Nat × RegDef) :=
  [(0x000, ro), (0x008, ro), (0x010, ro), (0x018, ⟨0, 1, 0x300, 0⟩), (0x020, ⟨0xFFFFFFFF, 0, 0, 0⟩),
   (0x028, ro), (0x030, ro), (0x038, ⟨ones64, 0, 0, 0⟩), (0x040, ro), (0x048, ⟨0, ones64, 0, 0⟩)]

/-- Registers of the core control page (R194, R63, R96, R116, R146, R166, R233, R257). -/
def coreRegs : List (Nat × RegDef) :=
  [(0x100, ro), (0x108, ro), (0x110, ⟨0, 0, 0xf, 0⟩), (0x118, ⟨0, 1, 0, 0⟩), (0x140, ⟨ones64,
   0, 0, 0x186a000989680⟩), (0x148, ⟨0xffffffff, 0, 0, 0x186a0⟩), (0x150, ro), (0x160, ⟨0, 0,
   0xffffffff0000003f, 0⟩), (0x168, ro), (0x170, ro), (0x400, ⟨ones64, 0, 0, 0x400000186a0⟩),
   (0x408, ro), (0x410, ro), (0x418, ⟨0, 0xf, 0, 0⟩), (0x440, ro), (0x448, ro), (0x450, ro),
   (0x458, ro), (0x460, ro), (0x468, ⟨0, 0x8000000000000000, 0, 0⟩), (0x480, ro), (0x488, ro),
   (0x490, ro), (0x4a0, ⟨0, 0, 0xffffffff01ffffff, 0⟩), (0x4a8, ro), (0x4b0, ro), (0x4c0,
   ⟨0xffffffff0000ffff, 0, 0, 0x30d40000001f4⟩), (0x4c8, ro), (0x500, ro), (0x520, ro), (0x540,
   ro)]
  ++ regArray 0x508 0x20 16 ro
  ++ regArray 0x510 0x20 16 ⟨0, ones64, 0, 0⟩
  ++ regArray 0x518 0x20 16 ⟨0, 0, 7, 0⟩
  ++ regArray 0x560 0x20 13 ⟨0xfff333, 0, 0, 0⟩

/-- Registers of the CHIP page (R27, R409). -/
def chipRegs : List (Nat × RegDef) :=
  [(0x100, ⟨0xfff, 0, 0, 0xfff⟩), (0x108, ⟨0, 0, 0, 0x28000d10⟩), (0x110, ro), (0x118, ⟨ones64,
   0, 0, 0⟩), (0x120, ⟨ones64, 0, 0, 0⟩), (0x128, ro)]

/-- Registers of the EVT page (R471). -/
def evtRegs : List (Nat × RegDef) :=
  [(0x100, ⟨0xffff, 0, 0, 0x40⟩), (0x108, ro), (0x110, ro), (0x118, ro), (0x120, ⟨0, ones64, 0,
   0⟩), (0x148, ro), (0x150, ⟨0x7fffffffffffffff, 0, 0, 0x7fffffffffffffff⟩), (0x158,
   ⟨0x7fffffffffffffff, 0, 0, 0⟩)]
  ++ regArray 0x128 0x8 4 ro

/-- Registers of the GOV page (R431). -/
def govRegs : List (Nat × RegDef) :=
  [(0x100, ⟨0xffff0000, 0, 0, 0xffff0000⟩), (0x108, ⟨0xffffffff00ffffff, 0, 0,
   0x1c0016e005f0014⟩), (0x110, ⟨0, 0, 0, 0x804020100⟩), (0x118, ro), (0x120, ro)]

/-- Registers of the SLU page (R430). -/
def sluRegs : List (Nat × RegDef) :=
  [(0x100, ⟨0xffffffff, 0, 0, 0x2710⟩), (0x108, ⟨ones64, 0, 0, ones64⟩), (0x110, ⟨ones64, 0, 0,
   ones64⟩), (0x118, ⟨0xffffffff, 0, 0, 0xffffffff⟩), (0x120, ⟨ones64, 0, 0, 0⟩), (0x128,
   ⟨ones64, 0, 0, 0⟩), (0x130, ⟨0xffffffff, 0, 0, 0⟩), (0x138, ⟨0, 0, 0x3ff, 0⟩), (0x140, ⟨0,
   0, 0xf3fff, 0⟩), (0x148, ⟨0, 0xff, 0, 0⟩), (0x150, ro), (0x158, ro), (0x160, ro), (0x168,
   ro), (0x170, ro)]

/-- Registers of the SEC page (R452). -/
def secRegs : List (Nat × RegDef) :=
  [(0x100, ⟨0, 0, 0, 0x1100001⟩), (0x108, ro), (0x110, ro), (0x118, ⟨3, 0, 0, 0⟩), (0x120, ro),
   (0x128, ro), (0x130, ⟨0, 0, 0x33f0f, 0⟩), (0x138, ro)]

/-- Registers of the presence page (R234). -/
def presRegs : List (Nat × RegDef) :=
  [(0x100, ⟨0, 0, 0xffff00ffffe00000, 0⟩), (0x108, ro)]

/-- Registers of the KNOT page (R196). -/
def knotRegs : List (Nat × RegDef) :=
  [(0x100, ⟨0, 0, 0x7fffffffffff, 0⟩), (0x108, ⟨0, 0, 0x37f, 0⟩), (0x110, ⟨ones64, 0, 0,
   0x98968000989680⟩)]
  ++ regArray 0x200 0x10 64 ⟨0x3fffffffffffff, 0, 0, 0⟩
  ++ regArray 0x208 0x10 64 ro
  ++ regArray 0x600 0x10 16 ⟨0x3ffffffffff, 0, 0, 0⟩
  ++ regArray 0x608 0x10 16 ro

/-- Registers of the splice distribution page (R361). -/
def distRegs : List (Nat × RegDef) :=
  [(0x100, ⟨0xffff0001, 0, 0, 1⟩)]

/-- Registers of the FAB page (R320). -/
def fabRegs : List (Nat × RegDef) :=
  [(0x100, ⟨0xffffffff3f, 0, 0, 0x61a8010⟩), (0x108, ⟨0, 0, 0xffffffffff, 0⟩), (0x110, ro),
   (0x118, ⟨0, 0, 0xffffffffff, 0⟩), (0x120, ro), (0x400, ro), (0x408, ⟨0, 0, 0x3f, 0⟩)]
  ++ regArray 0x200 0x8 16 ⟨0xffff0003, 0, 0, 0⟩
  ++ regArray 0x300 0x10 16 ⟨0xfffffffe00001, 0, 0, 0⟩
  ++ regArray 0x308 0x10 16 ⟨0xffffe7ffff, 0, 0, 0⟩

/-- Registers of the ETH page (R385). -/
def ethRegs : List (Nat × RegDef) :=
  [(0x100, ⟨0xffffe03, 0, 0, 0x6601⟩), (0x108, ro), (0x110, ro), (0x118, ⟨0xffffffff, 0, 0,
   0x3e8⟩), (0x120, ⟨0x1ffff, 0, 0, 0⟩)]
  ++ regArray 0x200 0x20 16 ⟨0x1ffffffffffff, 0, 0, 0⟩
  ++ regArray 0x208 0x20 16 ⟨ones64, 0, 0, 0⟩
  ++ regArray 0x210 0x20 16 ⟨ones64, 0, 0, 0⟩

/-- Registers of the ROCE page (R385). -/
def roceRegs : List (Nat × RegDef) :=
  [(0x100, ⟨ones64, 0, 0, 0x10532157c0a08⟩), (0x108, ro)]

/-- Registers of the FPORT page (R321). -/
def fportRegs : List (Nat × RegDef) :=
  [(0x100, ⟨0xffffffff00000003, 0, 0, 0x186a000000001⟩), (0x108, ro), (0x110, ro), (0x118,
   ⟨0xffffff00ffffffff, 0, 0, 0x3e8080005f5e100⟩), (0x120, ⟨0, 0, 7, 0⟩), (0x128, ro), (0x130,
   ro), (0x138, ro)]

/-- Registers of the STK page (R285). -/
def stkRegs : List (Nat × RegDef) :=
  [(0x100, ⟨0x3ffffffffffffff, 0, 0, 0x84100005f5e100⟩), (0x108, ro), (0x110, ro), (0x118, ro),
   (0x120, ro), (0x128, ⟨0xffff, 0, 0, 0xa8c0⟩), (0x130, ⟨0, 0, 0xffffffff80000000, 0⟩),
   (0x138, ro), (0x140, ⟨0, 0, 0xff, 0⟩), (0x148, ⟨0, ones64, 0, 0⟩), (0x150, ⟨1, 0, 0, 0⟩)]

/-- Registers of the MSC page (R286). -/
def mscRegs : List (Nat × RegDef) :=
  [(0x100, ⟨0x7f, 0, 0, 8⟩), (0x108, ⟨0, 0, 3, 0⟩), (0x110, ro), (0x118, ro), (0x120, ro)]

/-- Registers of the SPL page (R359). -/
def splRegs : List (Nat × RegDef) :=
  [(0x100, ⟨0, 0, 0xffffffffff, 0⟩), (0x108, ⟨0, 0, 0x30fff, 0⟩), (0x110, ⟨0, 0xfff, 0, 0⟩),
   (0x118, ro), (0x120, ro), (0x128, ro), (0x130, ro), (0x138, ⟨0, 0, 0xffffffffff, 0⟩),
   (0x140, ro), (0x148, ⟨0, 0, 0xffffffffff, 0⟩), (0x150, ⟨0xffffffff, 0, 0, 0x989680⟩),
   (0x158, ro)]

/-- The registers of a page besides the header. -/
def pageRegs : PageId → List (Nat × RegDef)
  | .core _ => coreRegs | .chip => chipRegs | .evt => evtRegs | .gov => govRegs | .slu => sluRegs
  | .sec => secRegs | .pres => presRegs | .knot => knotRegs | .dist => distRegs | .fab => fabRegs
  | .eth => ethRegs | .roce => roceRegs | .fport _ => fportRegs | .stk _ => stkRegs
  | .msc _ => mscRegs | .spl _ => splRegs

/-- The register at an offset of a page; none where the page holds none (R387). -/
def regDef (p : PageId) (off : Nat) : Option RegDef := alookup off (headerRegs ++ pageRegs p)

/-- TYPE of a page (R408). -/
def pageType : PageId → Nat
  | .core _ => 0x0001 | .chip => 0x0010 | .evt => 0x0011 | .gov => 0x0012 | .slu => 0x0013
  | .sec => 0x0014 | .pres => 0x0015 | .knot => 0x0016 | .dist => 0x0017 | .fab => 0x0018
  | .eth => 0x0019 | .roce => 0x001A | .fport _ => 0x0020 | .stk _ => 0x0030 | .msc _ => 0x0031
  | .spl _ => 0x0032

/-- INSTANCE of a page (R408). -/
def pageInst : PageId → Nat
  | .core c => c | .fport p => p | .stk k => k | .msc k => k | .spl k => k | _ => 0

/-- PAGE_ID[31:0] (R390). -/
def pageIdent (p : PageId) : Nat := pageInst p * 65536 + pageType p

/-- The local address at which a page begins (R17, R408). -/
def pageBase : PageId → Nat
  | .core c => 0xD000000000 + c * 0x4000
  | .chip => 0xE000000000 | .evt => 0xE000001000 | .gov => 0xE000002000 | .slu => 0xE000003000
  | .sec => 0xE000004000 | .pres => 0xE000005000 | .knot => 0xE000006000 | .dist => 0xE000007000
  | .fab => 0xE000008000 | .eth => 0xE000009000 | .roce => 0xE00000A000
  | .fport p => 0xE000010000 + 0x1000 * p | .stk k => 0xE000020000 + 0x1000 * k
  | .msc k => 0xE000030000 + 0x1000 * k | .spl k => 0xE000040000 + 0x1000 * k

/-- The chip pages by ascending local address (R408, R465). -/
def chipPages : List PageId :=
  [.chip, .evt, .gov, .slu, .sec, .pres, .knot, .dist, .fab, .eth, .roce]
  ++ (upto 16).map PageId.fport ++ (upto 12).map PageId.stk ++ (upto 12).map PageId.msc
  ++ (upto 12).map PageId.spl

/-- The chip page of a local address in the chip page range (R23, R408). -/
def pageAt (a : Nat) : Option PageId := chipPages.find? (fun p => pageBase p == alignDown a 0x1000)

/-- The configuration image of a page: offsets of the registers with RWB fields, ascending, without
CFG_CRC_REF (R403). -/
def pageImageOffs (p : PageId) : List Nat :=
  let l := ((headerRegs ++ pageRegs p).filter (fun r => r.2.rwb != 0 && r.1 != 0x020)).map (·.1)
  sortBy (fun a b => decide (a ≤ b)) l

/-- The CRC of a page's reset image (R400). -/
def pageResetCrc (p : PageId) : Nat :=
  crc32c ((pageImageOffs p).flatMap fun o => leBytes 8 (((regDef p o).map RegDef.rst).getD 0))

end Sys2Proof.Machine
end

