-- ==== Sys2Proof/Machine/Events.lean ====
section
/-! DEFINITION. Event numbers and classes (R454, R456, R457), detail formats (R459) and the raising of
an event at the collector's inputs (R461). -/

namespace Sys2Proof.Machine

/-- ADDR_UNMAPPED, class FAULT (R457). -/
def evAddrUnmapped : Nat := 0x0001
/-- ADDR_PROTECTED, class FAULT (R457). -/
def evAddrProtected : Nat := 0x0002
/-- SYNC_UNDERFLOW, class FAULT (R457). -/
def evSyncUnderflow : Nat := 0x0003
/-- SYNC_OVERFLOW, class FAULT (R457). -/
def evSyncOverflow : Nat := 0x0004
/-- FAB_FORMAT, class FORMAT (R457). -/
def evFabFormat : Nat := 0x0005
/-- PAGE_ABSENT, class FAULT (R457). -/
def evPageAbsent : Nat := 0x0006
/-- CONFIG_DRIFT, class DATA (R457). -/
def evConfigDrift : Nat := 0x003F
/-- SRAM_UNCORR, class DATA (R457). -/
def evSramUncorr : Nat := 0x0108
/-- TALLY_OVF, class DATA (R457). -/
def evTallyOvf : Nat := 0x0109
/-- SIDE_LIST_BAD, class FAULT (R457). -/
def evSideListBad : Nat := 0x010A
/-- CALIB_DRIFT, class DATA (R457). -/
def evCalibDrift : Nat := 0x010B
/-- MATRIX_FORMAT, class FORMAT (R457). -/
def evMatrixFormat : Nat := 0x010C
/-- SPARSE_CODE_BAD, class FAULT (R457). -/
def evSparseCodeBad : Nat := 0x010D
/-- VECTOR_FORMAT, class FORMAT (R457). -/
def evVectorFormat : Nat := 0x010E
/-- SFU_LOAD_BAD, class FORMAT (R457). -/
def evSfuLoadBad : Nat := 0x010F
/-- SFU_SLOT_EMPTY, class FAULT (R457). -/
def evSfuSlotEmpty : Nat := 0x0110
/-- SFU_PARITY, class DATA (R457). -/
def evSfuParity : Nat := 0x0111
/-- STEWARD_TRAP, class FAULT (R457). -/
def evStewardTrap : Nat := 0x0112
/-- PORT_HALTED, class FAULT (R457). -/
def evPortHalted : Nat := 0x0113
/-- SYNC_WAIT_TIMEOUT, class WATCHDOG (R457). -/
def evSyncWaitTimeout : Nat := 0x0114
/-- BOLLARD_TIMEOUT, class WATCHDOG (R457). -/
def evBollardTimeout : Nat := 0x0115
/-- BOLLARD_FULL, class FAULT (R457). -/
def evBollardFull : Nat := 0x0116
/-- STRAND_FORMAT, class FORMAT (R457). -/
def evStrandFormat : Nat := 0x0117
/-- STRAND_ALIGN, class FORMAT (R457). -/
def evStrandAlign : Nat := 0x0118
/-- STRAND_OVERLAP, class FORMAT (R457). -/
def evStrandOverlap : Nat := 0x0119
/-- STRAND_PAGE, class FAULT (R457). -/
def evStrandPage : Nat := 0x011A
/-- STRAND_INDEX, class FAULT (R457). -/
def evStrandIndex : Nat := 0x011B
/-- STRAND_ADD_OVF, class DATA (R457). -/
def evStrandAddOvf : Nat := 0x011C
/-- STRAND_LATE, class WATCHDOG (R457). -/
def evStrandLate : Nat := 0x011D
/-- STRAND_STALL, class WATCHDOG (R457). -/
def evStrandStall : Nat := 0x011E
/-- STRAND_SPARSE_GROUP, class FAULT (R457). -/
def evStrandSparseGroup : Nat := 0x011F
/-- STRAND_SPARSE_ROW, class FAULT (R457). -/
def evStrandSparseRow : Nat := 0x0120
/-- COIL_CFG_BAD, class FORMAT (R457). -/
def evCoilCfgBad : Nat := 0x0121
/-- COIL_TIMEOUT, class WATCHDOG (R457). -/
def evCoilTimeout : Nat := 0x0122
/-- KNOT_NOT_MEMBER, class FORMAT (R457). -/
def evKnotNotMember : Nat := 0x0208
/-- KNOT_STALE, class FORMAT (R457). -/
def evKnotStale : Nat := 0x0209
/-- KNOT_TIMEOUT, class WATCHDOG (R457). -/
def evKnotTimeout : Nat := 0x020A
/-- KNOT_LOAD_BAD, class FORMAT (R457). -/
def evKnotLoadBad : Nat := 0x020B
/-- HBM_RETRAIN, class SEEP (R457). -/
def evHbmRetrain : Nat := 0x0308
/-- HBM_UNCORR, class DATA (R457). -/
def evHbmUncorr : Nat := 0x0309
/-- HBM_POISON, class DATA (R457). -/
def evHbmPoison : Nat := 0x030A
/-- HBM_BREACH, class BREACH (R457). -/
def evHbmBreach : Nat := 0x030B
/-- HBM_PC_RETIRED, class BREACH (R457). -/
def evHbmPcRetired : Nat := 0x030C
/-- HBM_STACK_RETIRED, class BREACH (R457). -/
def evHbmStackRetired : Nat := 0x030D
/-- HBM_REPAIR_BAD, class FORMAT (R457). -/
def evHbmRepairBad : Nat := 0x030E
/-- HBM_TRAIN_FAIL, class SEEP (R457). -/
def evHbmTrainFail : Nat := 0x030F
/-- FAB_MIRROR_LOST, class FAULT (R457). -/
def evFabMirrorLost : Nat := 0x0310
/-- FAB_HOP_LIMIT, class FAULT (R457). -/
def evFabHopLimit : Nat := 0x0408
/-- FAB_CREDIT_STALL, class WATCHDOG (R457). -/
def evFabCreditStall : Nat := 0x0409
/-- FAB_LINK_RETRAIN, class SEEP (R457). -/
def evFabLinkRetrain : Nat := 0x040A
/-- FAB_LANE_BREACH, class BREACH (R457). -/
def evFabLaneBreach : Nat := 0x040B
/-- FAB_PORT_RETIRED, class BREACH (R457). -/
def evFabPortRetired : Nat := 0x040C
/-- FAB_PACKET_LOST, class DATA (R457). -/
def evFabPacketLost : Nat := 0x040D
/-- FAB_ID_CONFLICT, class FAULT (R457). -/
def evFabIdConflict : Nat := 0x040E
/-- FAB_NO_ROUTE, class FAULT (R457). -/
def evFabNoRoute : Nat := 0x0508
/-- FAB_CFG_BAD, class FORMAT (R457). -/
def evFabCfgBad : Nat := 0x0509
/-- FAB_TIMEOUT, class WATCHDOG (R457). -/
def evFabTimeout : Nat := 0x050A
/-- SPLICE_FORMAT, class FORMAT (R457). -/
def evSpliceFormat : Nat := 0x0608
/-- SPLICE_SHEET_BAD, class FORMAT (R457). -/
def evSpliceSheetBad : Nat := 0x0609
/-- SPLICE_TAG_BAD, class FORMAT (R457). -/
def evSpliceTagBad : Nat := 0x060A
/-- SPLICE_COUNT, class FAULT (R457). -/
def evSpliceCount : Nat := 0x060B
/-- SPLICE_TIMEOUT, class WATCHDOG (R457). -/
def evSpliceTimeout : Nat := 0x060C
/-- SPLICE_RESPLICE, class NOTICE (R457). -/
def evSpliceResplice : Nat := 0x060D
/-- SPLICE_NONFINITE, class DATA (R457). -/
def evSpliceNonfinite : Nat := 0x060E
/-- ETH_LINK_DOWN, class FAULT (R457). -/
def evEthLinkDown : Nat := 0x0708
/-- ETH_LINK_UP, class NOTICE (R457). -/
def evEthLinkUp : Nat := 0x0709
/-- ROCE_KEY_BAD, class FAULT (R457). -/
def evRoceKeyBad : Nat := 0x070A
/-- ROCE_OP_BAD, class FORMAT (R457). -/
def evRoceOpBad : Nat := 0x070B
/-- ROCE_QP_ERROR, class FAULT (R457). -/
def evRoceQpError : Nat := 0x070C
/-- TMP_FORMAT, class FORMAT (R457). -/
def evTmpFormat : Nat := 0x070D
/-- TMP_DENIED, class FAULT (R457). -/
def evTmpDenied : Nat := 0x070E
/-- GOV_THROTTLE, class NOTICE (R457). -/
def evGovThrottle : Nat := 0x0808
/-- GOV_OVER_CAP, class FAULT (R457). -/
def evGovOverCap : Nat := 0x0809
/-- GOV_COOL_CHANGE, class NOTICE (R457). -/
def evGovCoolChange : Nat := 0x080A
/-- GOV_THERM, class FAULT (R457). -/
def evGovTherm : Nat := 0x080B
/-- SLU_CMD_BAD, class FORMAT (R457). -/
def evSluCmdBad : Nat := 0x0908
/-- START_RESTARTED, class FAULT (R457). -/
def evStartRestarted : Nat := 0x0909
/-- START_READY, class NOTICE (R457). -/
def evStartReady : Nat := 0x0A08
/-- DEVICE_DEGRADED, class BREACH (R457). -/
def evDeviceDegraded : Nat := 0x0A09
/-- START_ESCALATED, class SEEP (R457). -/
def evStartEscalated : Nat := 0x0A0A
/-- SEC_SLOT_BAD, class FAULT (R457). -/
def evSecSlotBad : Nat := 0x0A0B
/-- SEC_SAFE, class FAULT (R457). -/
def evSecSafe : Nat := 0x0A0C
/-- SEC_IDENT_BAD, class FAULT (R457). -/
def evSecIdentBad : Nat := 0x0A0D
/-- FW_UPDATE_BAD, class FORMAT (R457). -/
def evFwUpdateBad : Nat := 0x0A0E

/-- Every event of R457 with its class code (R456). -/
def eventTable : List (Nat × Nat) :=
  [(0x0001, 4), (0x0002, 4), (0x0003, 4), (0x0004, 4), (0x0005, 3), (0x0006, 4),
   (0x003F, 6), (0x0108, 6), (0x0109, 6), (0x010A, 4), (0x010B, 6), (0x010C, 3),
   (0x010D, 4), (0x010E, 3), (0x010F, 3), (0x0110, 4), (0x0111, 6), (0x0112, 4),
   (0x0113, 4), (0x0114, 5)]
  ++ [(0x0115, 5), (0x0116, 4), (0x0117, 3), (0x0118, 3), (0x0119, 3), (0x011A, 4),
   (0x011B, 4), (0x011C, 6), (0x011D, 5), (0x011E, 5), (0x011F, 4), (0x0120, 4),
   (0x0121, 3), (0x0122, 5), (0x0208, 3), (0x0209, 3), (0x020A, 5), (0x020B, 3),
   (0x0308, 1), (0x0309, 6)]
  ++ [(0x030A, 6), (0x030B, 2), (0x030C, 2), (0x030D, 2), (0x030E, 3), (0x030F, 1),
   (0x0310, 4), (0x0408, 4), (0x0409, 5), (0x040A, 1), (0x040B, 2), (0x040C, 2),
   (0x040D, 6), (0x040E, 4), (0x0508, 4), (0x0509, 3), (0x050A, 5), (0x0608, 3),
   (0x0609, 3), (0x060A, 3)]
  ++ [(0x060B, 4), (0x060C, 5), (0x060D, 0), (0x060E, 6), (0x0708, 4), (0x0709, 0),
   (0x070A, 4), (0x070B, 3), (0x070C, 4), (0x070D, 3), (0x070E, 4), (0x0808, 0),
   (0x0809, 4), (0x080A, 0), (0x080B, 4), (0x0908, 3), (0x0909, 4), (0x0A08, 0),
   (0x0A09, 2), (0x0A0A, 1)]
  ++ [(0x0A0B, 4), (0x0A0C, 4), (0x0A0D, 4), (0x0A0E, 3)]

/-- Is it the number of an event (R318)? -/
def isEvent (code : Nat) : Bool := eventTable.any fun r => r.1 == code

/-- The class of an event (R456). -/
def eventClass (code : Nat) : Nat := aget 0 code eventTable

/-- Issuer codes of R459. -/
def issuerCode : Issuer → Nat
  | .steward _ => 0 | .arrays .. => 1 | .side .. => 2 | .vector .. => 3 | .strand .. => 4
  | .host _ => 5 | .tmp .. => 5 | .device .. => 6 | .warden _ => 7 | .splice .. => 8 | .aux _ => 8
  | .sender _ => 8 | .knot => 9 | .fanout => 10

/-- The strand context of an issuer, else 0 (R459). -/
def issuerContext : Issuer → Nat
  | .strand _ n _ => n
  | _ => 0

/-- The record tag of an engine issuer, else 0 (R459). -/
def issuerTag : Issuer → Nat
  | .arrays _ t => t | .side _ t => t | .vector _ t => t | .strand _ _ t => t | _ => 0

/-- The page on which an issuer's address events are raised (R37, R455). -/
def issuerPage : Issuer → PageId
  | .steward c => .core c | .arrays c _ => .core c | .side c _ => .core c | .vector c _ => .core c
  | .strand c _ _ => .core c | .host _ => .eth | .tmp .. => .eth | .device .. => .fab | .warden _ => .chip
  | .splice k _ => .spl k | .aux k => .spl k | .sender k => .spl k | .knot => .knot | .fanout => .fab

/-- DETAIL of format ADDR (R459). -/
def detAddr (local_ dev : Nat) (w : Issuer) : Nat :=
  fld local_ 39 0 + fld dev 51 40 + fld (issuerCode w) 55 52 + fld (issuerContext w) 58 56

/-- DETAIL of format SYNC (R459): the word's sync-alias local address. -/
def detSync (word_ dev : Nat) (w : Issuer) : Nat :=
  fld ((word_ - 0xC800000000) / 8) 31 0 + fld dev 43 32 + fld (issuerCode w) 47 44 + fld (issuerTag w) 63 48

/-- DETAIL of format TAG (R459): executor 0 arrays, 1 side path, 2 vector engine, 3 strand engine. -/
def detTag (tag executor ctx position : Nat) : Nat :=
  fld tag 15 0 + fld executor 17 16 + fld ctx 20 18 + fld position 63 24

/-- DETAIL of format UNIT (R459). -/
def detUnit (index sub value : Nat) : Nat := fld index 15 0 + fld sub 31 16 + fld value 63 32

/-- DETAIL of format CRC (R459). -/
def detCrc (crc ref : Nat) : Nat := fld crc 31 0 + fld ref 63 32

/-- The collector input a page joins (R461). -/
def collectorInput : PageId → Nat
  | .chip | .evt | .gov | .slu | .sec | .knot | .pres | .dist => 0
  | .fab | .eth | .roce => 1
  | .core c => 1 + c / 2560
  | .stk k => 1 + k / 3
  | .msc k => 1 + k / 3
  | .spl k => 1 + k / 3
  | .fport p => 1 + p / 4

/-- Raises an event of a page: it joins the page's collector input, or is dropped and counted where
that queue is full (R461, R462). (DESIGN CHOICE, log entry 32) -/
def raiseEv (p : PageId) (code detail : Nat) (s : State) : State :=
  let i := collectorInput p
  let q := nth [] s.evt.inputs i
  if q.length ≥ 256 then { s with evt := { s.evt with dropped := (s.evt.dropped + 1) % 2 ^ 32 } }
  else
    let r : Raise := ⟨p, code, s.now, detail⟩
    { s with evt := { s.evt with inputs := put s.evt.inputs i (q ++ [r]) } }

/-- An answer on its way to its issuer. -/
def answer (q : Req) (r : Resp) (s : State) : State := { s with answers := s.answers ++ [(q, r)] }

end Sys2Proof.Machine
end

