-- ==== Sys2Proof/Machine/Ops.lean ====
section
/-! DEFINITION. Named operations on the state: units by number, register fields as applied, the
conditions under which a command has an effect at all, and the wrapper every meaning goes through. -/

namespace Sys2Proof.Machine

/-! ## Units by number -/

/-- Core c. -/
def State.core (s : State) (c : Nat) : Core := aget {} c s.cores
/-- The state with core c replaced. -/
def State.setCore (s : State) (c : Nat) (v : Core) : State := { s with cores := aset c v s.cores }
/-- The state with a steward replaced. -/
def State.setStw (s : State) (c : Nat) (v : Steward) : State := s.setCore c { s.core c with stw := v }
/-- Stack k. -/
def State.stack (s : State) (k : Nat) : Stack := aget {} k s.hbmStacks
/-- The state with stack k replaced. -/
def State.setStack (s : State) (k : Nat) (v : Stack) : State := { s with hbmStacks := aset k v s.hbmStacks }
/-- Splice unit k. -/
def State.splice (s : State) (k : Nat) : Spl := aget {} k s.spl
/-- The state with splice unit k replaced. -/
def State.setSplice (s : State) (k : Nat) (v : Spl) : State := { s with spl := aset k v s.spl }
/-- Fabric port p. -/
def State.port (s : State) (p : Nat) : FPort := aget {} p s.ports
/-- The state with port p replaced. -/
def State.setPort (s : State) (p : Nat) (v : FPort) : State := { s with ports := aset p v s.ports }
/-- A register page. -/
def State.page (s : State) (p : PageId) : Page := aget {} p s.pages
/-- The state with a page replaced. -/
def State.setPage (s : State) (p : PageId) (v : Page) : State := { s with pages := aset p v s.pages }
/-- Polder p. -/
def State.polder (s : State) (p : Nat) : Polder := aget {} p s.slu.polders
/-- The state with polder p replaced. -/
def State.setPolder (s : State) (p : Nat) (v : Polder) : State :=
  { s with slu := { s.slu with polders := aset p v s.slu.polders } }
/-- Chip knot slot k. -/
def State.chipSlot (s : State) (k : Nat) : ChipSlot := aget {} k s.chipSlots
/-- The state with chip knot slot k replaced. -/
def State.setChipSlot (s : State) (k : Nat) (v : ChipSlot) : State :=
  { s with chipSlots := aset k v s.chipSlots }
/-- Hall knot slot h. -/
def State.hallSlot (s : State) (h : Nat) : HallSlot := aget {} h s.hallSlots
/-- The state with hall knot slot h replaced. -/
def State.setHallSlot (s : State) (h : Nat) (v : HallSlot) : State :=
  { s with hallSlots := aset h v s.hallSlots }
/-- Queue-pair context i. -/
def State.qp (s : State) (i : Nat) : Qp := aget {} i s.eth.qps
/-- The state with queue-pair context i replaced. -/
def State.setQp (s : State) (i : Nat) (v : Qp) : State :=
  { s with eth := { s.eth with qps := aset i v s.eth.qps } }
/-- The polder of core c (R15). -/
def polderOf (c : Nat) : Nat := c / 64
/-- The tile of core c (R13). -/
def tileOf (c : Nat) : Nat := c / 2560
/-- The state with one more message sent. -/
def State.emit (s : State) (m : Msg) : State := { s with sent := m :: s.sent }
/-- One draw of free bits (DESIGN CHOICE, log entry 5): a number below 2^n that nothing constrains. -/
def State.draw (s : State) (n : Nat) : Nat × State :=
  (Config.freeBits s.freeCount n, { s with freeCount := s.freeCount + 1 })

/-! ## Register fields as applied -/

/-- The reset value of a register's stored fields (R390, R400). -/
def regReset (p : PageId) (off : Nat) : Nat :=
  if off = 0x020 then pageResetCrc p else ((regDef p off).map RegDef.rst).getD 0

/-- The applied or RW value stored for a register (R394). -/
def State.reg (s : State) (p : PageId) (off : Nat) : Nat :=
  match alookup off (s.page p).vals with
  | some v => v
  | none => regReset p off

/-- Field [hi:lo] of a register as applied. -/
def State.field (s : State) (p : PageId) (off hi lo : Nat) : Nat := bits (s.reg p off) hi lo

/-- The state with a register's stored value replaced. -/
def State.setReg (s : State) (p : PageId) (off v : Nat) : State :=
  s.setPage p { s.page p with vals := aset off v (s.page p).vals }

/-- CHIP_IDENT.DEVICE_ID as applied (R27). -/
def State.deviceId (s : State) : Nat := s.field .chip 0x100 11 0

/-- CORE_WDOG_CFG.ENGINE_WAIT (R194). -/
def State.engineWait (s : State) (c : Nat) : Nat := s.field (.core c) 0x140 31 0
/-- CORE_WDOG_CFG.WRS_LIMIT (R194). -/
def State.wrsLimit (s : State) (c : Nat) : Nat := s.field (.core c) 0x140 63 32
/-- CORE_BOLLARD_CFG.TIMEOUT (R194). -/
def State.bollardTimeout (s : State) (c : Nat) : Nat := s.field (.core c) 0x148 31 0
/-- FAB_CFG.REQ_TIMEOUT (R320). -/
def State.reqTimeout (s : State) : Nat := s.field .fab 0x100 39 8
/-- FAB_CFG.HOP_LIMIT (R320). -/
def State.hopLimit (s : State) : Nat := s.field .fab 0x100 5 0

/-! ## When a command has an effect -/

/-- PWR_GOOD is asserted (R433: every state but OFF). -/
def State.powered (s : State) : Bool := s.sec.state != 0

/-- READY or DEGRADED: every subsystem in service (R433). -/
def State.live (s : State) : Bool := s.sec.state == 4 || s.sec.state == 5

/-- Core c exists and its polder is ACTIVE in a device in service (R420, R433). -/
def State.awake (s : State) (c : Nat) : Bool :=
  s.live && decide (c < 10240) && (s.polder (polderOf c)).state == 0

/-- Stack k exists and is in service: neither retired nor in BRINGUP (R25, R283). -/
def State.stackUp (s : State) (k : Nat) : Bool :=
  decide (k < 12) && (s.stack k).state != 2 && (s.stack k).state != 3 && (s.stack k).mscCmd != 4

/-- A command's outcome: the effect f where the condition holds, else nothing. The dike time counter
and the queue are no command's to change, PWR_GOOD apart (R413). (DESIGN CHOICE, log entry 1) -/
def run (ok : State → Bool) (f : State → State) (s : State) : Host.Outcome State Fault Refusal :=
  if ok s then .next { f s with now := s.now, pending := s.pending } else .next s

/-- The tick has reached t0 + limit: a watchdog interval [t0, t0 + limit) is over (R414, R468). (DESIGN CHOICE, log entry 9) -/
def State.past (s : State) (t0 limit : Nat) : Bool := decide (t0 + limit ≤ s.now)

/-- Applies f to every element of a list in turn. -/
def each {α : Type} (l : List α) (f : α → State → State) (s : State) : State :=
  l.foldl (fun s a => f a s) s

end Sys2Proof.Machine
end

