-- ==== Sys2Proof/Machine/Status.lean ====
section
/-! DEFINITION. What the read-only fields of the register pages show, computed from the state of the
blocks (R194 to R196, R285, R286, R320, R321, R385, R390, R409, R430, R431, R452, R471). -/

namespace Sys2Proof.Machine

/-- The number of a steward state (R194). -/
def StwState.code : StwState → Nat
  | .idle => 0 | .run => 1 | .halt => 2

/-- A set of small numbers as a bit mask. -/
def maskOf (l : List Nat) : Nat := l.foldl (fun m i => m ||| 2 ^ i) 0

/-- EVT_STATUS of a page (R401). -/
def evStatus (p : Page) : Nat :=
  maskOf ((p.evSeq.filter fun e => decide (e.2 > p.evAck)).map (·.1))

/-- EVT_SEQ of a page (R401). -/
def evSeqMax (p : Page) : Nat := p.evSeq.foldl (fun m e => max m e.2) 0

/-- PAGE_STATUS (R390). -/
def pageStatus (p : Page) : Nat :=
  8 * b2n p.skipped + 4 * b2n p.drift + 2 * b2n (p.hold && p.pend.any fun d => !d.2.released) + b2n (!p.pend.isEmpty)

/-- Read-only header fields (R390). -/
def headerValue (s : State) (p : PageId) (off : Nat) : Nat :=
  let g := s.page p
  if off = 0x000 then pageIdent p
  else if off = 0x008 then 0x0100
  else if off = 0x010 then pageStatus g
  else if off = 0x028 then g.crcNow + g.crcCount * 2 ^ 32
  else if off = 0x030 then evStatus g
  else if off = 0x040 then evSeqMax g
  else 0

/-- CHIP_DRIFT.COUNT (R409). -/
def driftCount (s : State) : Nat := (s.pages.filter fun p => p.2.drift).length

/-- Read-only registers of the CHIP page (R409). -/
def chipValue (s : State) (off : Nat) : Nat :=
  if off = 0x108 then s.sec.baseStep * 2 ^ 44 + s.sec.metalStep * 2 ^ 40 + 0x2800 * 2 ^ 16 + 0x0D10
  else if off = 0x110 then s.sec.fwVer
  else if off = 0x128 then driftCount s * 2 ^ 48 + s.evt.driftLast
  else 0

/-- The record in slot sel mod 65,536 of the log (R464). -/
def logSlot (s : State) (sel : Nat) : Option EvRec :=
  s.evt.log.find? fun r => r.seq % 65536 == sel % 65536

/-- The four words of an event record (R458). -/
def recordWord (r : EvRec) (w : Nat) : Nat :=
  if w = 0 then r.seq
  else if w = 1 then r.time
  else if w = 2 then r.code + eventClass r.code * 2 ^ 16 + r.page * 2 ^ 32
  else r.detail

/-- Read-only registers of the EVT page (R471). -/
def evtValue (s : State) (off : Nat) : Nat :=
  if off = 0x108 then s.evt.next
  else if off = 0x110 then s.evt.oldest
  else if off = 0x118 then s.evt.sent
  else if 0x128 ≤ off && off ≤ 0x140 then
    match logSlot s (s.reg .evt 0x120) with
    | some r => recordWord r ((off - 0x128) / 8)
    | none => 0
  else if off = 0x148 then s.evt.sramSeep + s.evt.dropped * 2 ^ 32
  else 0

/-- The cooling cap of a code in W (R425, R481). -/
def coolCap (code : Nat) : Nat :=
  if code = 6 then 1200 else if code = 5 || code = 3 then 2000 else 300

/-- Read-only fields of the GOV page (R431). -/
def govValue (s : State) (off : Nat) : Nat :=
  let g := s.gov
  if off = 0x100 then coolCap g.cool * 2 ^ 32 + g.cool
  else if off = 0x110 then
    fld g.capEff 63 48 + fld g.dlDuty 35 27 + fld g.bulkDuty 26 18 + fld g.vxDuty 17 9 + fld g.mxDuty 8 0
  else if off = 0x118 then fld g.base 63 32 + fld g.meas 31 0
  else if off = 0x120 then g.throttleWin
  else 0

/-- The fence bit of a polder as applied (R419). -/
def State.fenced (s : State) (p : Nat) : Bool := bit (s.reg .slu (0x120 + 8 * (p / 64))) (p % 64)

/-- A core or polder reset of the polder is scheduled (R430). -/
def State.resetting (s : State) (p : Nat) : Bool :=
  s.slu.resets.any fun r => (r.1 == 1 && polderOf r.2.1 == p) || (r.1 == 2 && r.2.1 == p)

/-- Has polder p accesses in flight across its crossings, in either direction (R419, R430): outstanding requests of its
stewards or engines, requests held for it, and bollard operations that wait on the other side? -/
def State.inflight (s : State) (p : Nat) : Bool :=
  let mine := fun (w : Issuer) => match w with
    | .steward c => polderOf c == p
    | .arrays c _ => polderOf c == p
    | .side c _ => polderOf c == p
    | .vector c _ => polderOf c == p
    | .strand c _ _ => polderOf c == p
    | _ => false
  s.fab.outs.any (fun o => mine o.who) || s.fab.gateway.any (fun g => mine g.1.who)
    || s.fab.deferred.any (fun d => mine d.req.who)
    || s.held.any (fun h => mine h.req.who || h.gate == .polder p) || s.parked.any (fun a => a.1 == p)
    || s.cores.any (fun r => r.2.bol.waits.any fun w => mine w.req.who != (polderOf r.1 == p))

/-- Read-only registers of the SLU page (R430). -/
def sluValue (s : State) (off : Nat) : Nat :=
  if off = 0x150 then
    let p := s.field .slu 0x148 7 0
    let d := s.polder p
    if p ≥ 160 then 0
    else fld d.wakes 63 32 + 32 * b2n (s.resetting p) + 16 * b2n (s.inflight p) + 8 * b2n (s.fenced p)
      + d.state
  else if 0x158 ≤ off && off ≤ 0x168 then
    let i := (off - 0x158) / 8
    maskOf ((upto 64).filter fun j => decide (64 * i + j < 160) && (s.polder (64 * i + j)).state == 2)
  else if off = 0x170 then s.slu.wakeLast
  else 0

/-- The stacks that are retired (R452). -/
def retiredStacks (s : State) : List Nat := (upto 12).filter fun k => (s.stack k).state == 2

/-- Read-only registers of the SEC page (R452). -/
def secValue (s : State) (off : Nat) : Nat :=
  let c := s.sec
  if off = 0x100 then
    fld c.restarts 47 40 + fld (maskOf (retiredStacks s)) 39 28 + fld c.causeB 27 24 + fld c.causeA 23 20
      + fld (b2n c.mismatch) 19 19 + fld (b2n c.reloaded) 18 18 + fld c.kind 17 16 + c.state
  else if off = 0x108 then c.t0
  else if off = 0x110 then c.readyT
  else if off = 0x120 then 128 * b2n c.idOk + 64 * b2n c.keySet + c.svn
  else if off = 0x128 then c.serial
  else if off = 0x138 then fld c.fwBytes 63 32 + fld c.fwCause 7 4 + fld c.fwSlot 3 3 + c.fwState
  else 0

/-- Read-only registers of the KNOT page (R196). -/
def knotValue (s : State) (off : Nat) : Nat :=
  if 0x200 ≤ off && off < 0x600 && off % 16 == 8 then
    let k := s.chipSlot ((off - 0x208) / 16)
    fld (b2n k.bound) 62 62 + fld (b2n k.timedOut) 61 61 + fld (b2n (!k.arrived.isEmpty)) 60 60
      + fld k.mask.length 59 46 + fld k.arrived.length 45 32 + k.gen
  else if 0x600 ≤ off && off < 0x700 && off % 16 == 8 then
    let h := s.hallSlot ((off - 0x608) / 16)
    fld (b2n h.sent) 47 47 + fld (b2n h.timedOut) 46 46 + fld (b2n h.pending) 45 45 + fld h.count 44 32
      + h.gen
  else 0

/-- The table in force as its 16 KiB image (R302). -/
def routeImage (r : List (Nat × Nat)) : List Byte :=
  (upto 4096).flatMap fun d => leBytes 4 (aget 0 d r)

/-- Read-only registers of the FAB page (R320). -/
def fabValue (s : State) (off : Nat) : Nat :=
  if off = 0x110 then fld s.fab.routeState 33 32 + s.fab.routeCrc
  else if off = 0x120 then
    fld s.fab.fanDone 63 32 + fld s.fab.fanErr 31 16 + s.fab.fanQueue.length + b2n s.fab.fanRun.isSome
  else if off = 0x400 then fld (maskOf s.fab.cfgErr) 31 16 + maskOf s.fab.suspended
  else 0

/-- Has INIT enabled the fabric ports? Before it, and in SAFE, every port is disabled (R435, R442). -/
def State.portsOn (s : State) : Bool := s.sec.state == 4 || s.sec.state == 5

/-- Read-only registers of an FPORT page (R321). -/
def fportValue (s : State) (p off : Nat) : Nat :=
  let f := s.port p
  let nb := fun (l : Link) => match l.neighbour with
    | some (d, q) => d * 2 ^ 16 + q * 2 ^ 8 + 1
    | none => 0
  if off = 0x108 then
    fld (maskOf f.dead) 47 40 + fld (if f.split then 3 else f.mode) 33 32
      + (if !s.portsOn then 0 else (if f.split then fld f.link1.state 15 12 else 0) + fld f.link0.state 11 8)
  else if off = 0x110 then (if f.split then nb f.link1 * 2 ^ 32 else 0) + nb f.link0
  else if off = 0x128 then f.corrSym
  else if off = 0x130 then f.retry
  else if off = 0x138 then
    (upto 5).foldl (fun v i => v + fld (nth 0 f.link0.credits i) (10 * i + 9) (10 * i)) 0
  else 0

/-- The code of a maintenance activity (R285). -/
def Maint.code : Maint → Nat
  | .retrain => 1 | .migration => 2 | .repair => 3 | .calibration => 4 | .scrub => 5

/-- Is it an error of the memory-side cache's own storage? -/
def errCached : HbmErr → Bool
  | .cacheCorrectable => true | .cacheUncorrectable => true
  | _ => false

/-- Is the pseudo-channel held by a running retrain, repair or calibration (R281)? A retrain that waits
for its token holds nothing (R275). -/
def Stack.channelHeld (t : Stack) (pc : Nat) : Bool :=
  match t.maint with
  | some (.retrain, p) => p == pc && t.token
  | some (.repair, p) => p == pc
  | some (.calibration, p) => p == pc
  | _ => false

/-- STK_PC_STATE of one pseudo-channel (R285). -/
def Stack.pcState (t : Stack) (pc : Nat) : Nat :=
  match t.maint with
  | some (.retrain, p) => if p == pc && t.token then 1 else outState
  | _ => outState
where
  outState : Nat := if t.outPc = some pc then (if t.migrating then 2 else 3) else 0

/-- Read-only registers of an STK page (R285). -/
def stkValue (s : State) (k off : Nat) : Nat :=
  let t := s.stack k
  if off = 0x108 then (upto 32).foldl (fun v p => v + fld (t.pcState p) (2 * p + 1) (2 * p)) 0
  else if off = 0x110 then
    (match t.maint with
      | some (a, p) => fld p 47 43 + fld a.code 42 40
      | none => 0)
      + fld t.copyPtr 38 16 + fld (t.outPc.getD 0) 12 8 + t.state
  else if off = 0x118 then t.seep
  else if off = 0x120 then t.errLast
  else if off = 0x138 then fld t.softUsed 15 8 + t.repairState
  else 0

/-- Read-only registers of an MSC page (R286). -/
def mscValue (s : State) (k off : Nat) : Nat :=
  let t := s.stack k
  if off = 0x110 then b2n t.busy
  else if off = 0x118 then t.hits
  else if off = 0x120 then t.misses
  else 0

/-- Read-only registers of the ETH and ROCE pages (R385). -/
def ethValue (s : State) (off : Nat) : Nat :=
  if off = 0x108 then fld s.eth.dropped 63 48 + s.eth.mac
  else if off = 0x110 then fld s.eth.downs 63 32 + s.eth.link
  else if off = 0x120 then fld s.eth.denied 63 48
  else 0

/-- Read-only registers of the ROCE page (R385). -/
def roceValue (s : State) (off : Nat) : Nat :=
  if off = 0x108 then
    fld (s.eth.qps.filter fun q => q.2.state == 3).length 47 32 + s.eth.outstanding
  else 0

/-- Steward, bollard and knot registers of a core control page (R194). -/
def stwValue (s : State) (c off : Nat) : Nat :=
  let r := s.core c
  if off = 0x100 then fld r.stw.cause 15 8 + 4 * b2n r.stw.monitor.isSome + r.stw.st.code
  else if off = 0x108 then r.stw.haltPc
  else if off = 0x118 then b2n r.stw.msip
  else if off = 0x150 then maskOf (r.bol.full.map (·.1))
  else if off = 0x168 then r.seen
  else if off = 0x170 then r.cancelled
  else 0

end Sys2Proof.Machine
end

