-- ==== Sys2Proof/Machine/Collector.lean ====
section
/-! DEFINITION. The event collector (R460 to R464, R383, R384): logging, the per-page limit windows and
event datagrams. -/

namespace Sys2Proof.Machine

/-- The local event bit of an event number (R454). -/
def localBit (code : Nat) : Nat := code % 64

/-- The oldest number held in a log whose next number is n (R464). -/
def oldestFor (n : Nat) : Nat := if n > 65536 then n - 65536 else 1

/-- The limit window of now: at a multiple of 100,000 ticks the per-page counts restart (R462). -/
def rollLimits (s : State) : State :=
  if s.evt.window < s.now / 100000 then
    { s with
      pages := s.pages.map fun p => (p.1, { p.2 with evCount := [] })
      evt := { s.evt with window := s.now / 100000 } }
  else s

/-- Logs one raise: it takes the next sequence number, which its page stores in the same step, or it is
dropped by the page limit (R401, R460, R462). -/
def logRaise (r : Raise) (s : State) : State :=
  let limit := s.field .evt 0x100 15 0
  let g := s.page r.page
  let n := localBit r.code
  let c := aget 0 n g.evCount
  if limit ≠ 0 ∧ limit ≤ c then
    { s with evt := { s.evt with dropped := (s.evt.dropped + 1) % 2 ^ 32 } }
  else
    let q := s.evt.next
    let rec_ : EvRec := ⟨q, r.time, r.code, pageIdent r.page, r.detail, s.now⟩
    let s := s.setPage r.page { g with evSeq := aset n q g.evSeq, evCount := aset n (c + 1) g.evCount }
    { s with evt := { s.evt with
        next := q + 1, oldest := oldestFor (q + 1), log := (rec_ :: s.evt.log).take 65536 } }

/-- Logs the head of one input; the pointer moves past it. -/
def logHead (i : Nat) (s : State) : State :=
  match nth [] s.evt.inputs i with
  | [] => s
  | r :: q =>
    let s := { s with evt := { s.evt with
      inputs := put s.evt.inputs i q, pointer := (i + 1) % 5, loggedIn := some s.now } }
    logRaise r s

/-- The inputs that hold a raise, ascending from the pointer, four at most, once in a dike tick (R461). -/
def servedInputs (s : State) : List Nat :=
  if s.evt.loggedIn = some s.now then [] else
  (((upto 5).map fun i => (s.evt.pointer + i) % 5).filter fun i => !(nth [] s.evt.inputs i).isEmpty).take 4

/-- EVENT_LOG (R461): the collector logs the heads of up to four inputs. -/
def execEventLog (s : State) : Host.Outcome State Fault Refusal :=
  run State.powered (fun s => each (servedInputs s) logHead (rollLimits s)) s

/-- PAGE_LIMIT_WINDOW (R462): the per-page counts restart at a multiple of 100,000 ticks. -/
def execPageLimitWindow (s : State) : Host.Outcome State Fault Refusal := run State.powered rollLimits s

/-- The first record number a datagram would carry (R464). -/
def firstUnsent (s : State) : Nat := max s.evt.sent s.evt.oldest

/-- The tick at which record n was logged. -/
def loggedAt (s : State) (n : Nat) : Nat :=
  match s.evt.log.find? fun r => r.seq == n with
  | some r => r.logged
  | none => 0

/-- Records of a datagram: up to 40 from number n on (R383). -/
def datagramRecords (s : State) : List EvRec :=
  let n := firstUnsent s
  let k := min 40 (s.evt.next - n)
  (upto k).filterMap fun i => s.evt.log.find? fun r => r.seq == n + i

/-- The bytes of an event datagram (R383, R458). -/
def datagramBytes (s : State) (rs : List EvRec) : List Byte :=
  leBytes 2 0x4554 ++ leBytes 1 1 ++ leBytes 1 rs.length ++ leBytes 2 s.deviceId ++ leBytes 2 0
    ++ leBytes 8 (firstUnsent s) ++ leBytes 8 s.now ++ leBytes 8 0
    ++ rs.flatMap fun r => (upto 4).flatMap fun w => leBytes 8 (recordWord r w)

/-- May a datagram leave now (R383, R384)? -/
def datagramDue (s : State) : Bool :=
  let waiting := s.evt.next - firstUnsent s
  s.live && s.eth.destEn && s.eth.link == 3 && decide (0 < waiting)
    && !(s.eth.paused.contains (s.field .eth 0x100 14 12))
    && (decide (40 ≤ waiting) || s.past (loggedAt s (firstUnsent s)) (s.field .eth 0x118 31 0))

/-- EVENT_DATAGRAM (R383): the records from EVT_SENT on leave and the pointer passes them. -/
def execEventDatagram (s : State) : Host.Outcome State Fault Refusal :=
  run datagramDue (fun s =>
    let rs := datagramRecords s
    let s' := s.emit (.events s.eth.destIp s.eth.destPort (datagramBytes s rs))
    { s' with evt := { s'.evt with sent := firstUnsent s + rs.length } }) s

end Sys2Proof.Machine
end

