-- ==== Sys2Proof/Machine/Packets.lean ====
section
/-! DEFINITION. Nymbiest packets (R303, R304), routing (R298 to R301), the link with its flits, credits
and replay buffer (R289 to R293), and what a retired link loses (R317). -/

namespace Sys2Proof.Machine

/-! ## Packet fields (R303) -/

/-- Bits [hi:lo] of a header word. -/
def wbits (w : Word) (hi lo : Nat) : Nat := bits w.toNat hi lo

/-- OPC. -/
def pOpc (p : Packet) : Nat := wbits p.w0 4 0
/-- VL. -/
def pVl (p : Packet) : Nat := wbits p.w0 7 5
/-- ORDERED. -/
def pOrdered (p : Packet) : Bool := wbits p.w0 8 8 == 1
/-- BULK. -/
def pBulk (p : Packet) : Bool := wbits p.w0 9 9 == 1
/-- HOPS. -/
def pHops (p : Packet) : Nat := wbits p.w0 15 10
/-- DST_ID. -/
def pDst (p : Packet) : Nat := wbits p.w0 27 16
/-- SRC_ID. -/
def pSrc (p : Packet) : Nat := wbits p.w0 39 28
/-- TTD, signed. -/
def pTtd (p : Packet) : Int := sext (wbits p.w0 63 40) 24
/-- ADDR. -/
def pAddr (p : Packet) : Nat := wbits p.w1 39 0
/-- Data bytes. -/
def pLen (p : Packet) : Nat := wbits p.w1 51 40 + 1
/-- REQ_ID. -/
def pReqId (p : Packet) : Nat := wbits p.w2 15 0
/-- STATUS. -/
def pStatus (p : Packet) : Nat := wbits p.w2 31 16
/-- AUX. -/
def pAux (p : Packet) : Nat := wbits p.w2 43 32
/-- CANCEL. -/
def pCancel (p : Packet) : Bool := wbits p.w2 44 44 == 1
/-- Are the reserved bits zero? -/
def pReservedOk (p : Packet) : Bool := wbits p.w1 63 52 == 0 && wbits p.w2 63 45 == 0

/-- The table of R304: OPC, virtual lane, ordered as a request, carries data. -/
def opcTable : List (Nat × Nat × Bool × Bool) :=
  [(0x01, 0, false, false), (0x02, 0, false, true), (0x03, 2, false, true), (0x04, 2, false, true),
   (0x05, 0, true, false), (0x06, 0, true, false), (0x07, 0, true, false), (0x08, 0, true, false),
   (0x09, 0, true, false), (0x0A, 0, true, false), (0x0B, 4, true, false), (0x0C, 4, true, false),
   (0x0D, 3, true, true), (0x0E, 0, true, true), (0x10, 4, false, true), (0x1F, 1, false, true)]

/-- The virtual lane of an operation (R304). -/
def opcVl (opc : Nat) : Nat := (aget (0, false, false) opc opcTable).1
/-- Does the operation carry data? A RESPONSE carries LEN bytes; one without data carries one byte that
nobody reads (DEDUCED, log entry 12). -/
def opcData (opc : Nat) : Bool := (aget (0, false, false) opc opcTable).2.2
/-- Is it an operation of R304? -/
def opcKnown (opc : Nat) : Bool := (alookup opc opcTable).isSome

/-- A packet from its fields; the lane is that of the operation. TTD is written when it departs (R214). -/
def mkPacket (opc : Nat) (ordered : Bool) (ttd : Option Int) (dst src addr len reqId status aux : Nat)
    (cancel : Bool) (operand : Nat) (data : List Byte) : Packet :=
  { w0 := word (fld opc 4 0 + fld (opcVl opc) 7 5 + fld (b2n ordered) 8 8 + fld (b2n ttd.isNone) 9 9
      + fld dst 27 16 + fld src 39 28 + fld (toBits (ttd.getD 0) 24) 63 40)
    w1 := word (fld addr 39 0 + fld (len - 1) 51 40)
    w2 := word (fld reqId 15 0 + fld status 31 16 + fld aux 43 32 + fld (b2n cancel) 44 44)
    w3 := word operand
    data := data }

/-- A packet with HOPS increased by one (R301). -/
def bumpHops (p : Packet) : Packet :=
  { p with w0 := word (p.w0.toNat - fld (pHops p) 15 10 + fld (pHops p + 1) 15 10) }

/-- The bytes of a packet: header, then data. -/
def packetBytes (p : Packet) : List Byte :=
  leBytes 8 p.w0.toNat ++ leBytes 8 p.w1.toNat ++ leBytes 8 p.w2.toNat ++ leBytes 8 p.w3.toNat ++ p.data

/-- The header words at the front of received bytes. -/
def parseHeader (bs : List Byte) : Packet :=
  { w0 := word (leNat (hd 0)), w1 := word (leNat (hd 8)), w2 := word (leNat (hd 16)), w3 := word (leNat (hd 24))
    data := [] }
where hd (i : Nat) : List Byte := (bs.drop i).take 8

/-- Bytes of a packet whose header this is. -/
def packetSize (p : Packet) : Nat := 32 + if opcData (pOpc p) then pLen p else 0

/-- Flits of a packet (R290). -/
def packetFlits (p : Packet) : Nat := cdiv (packetSize p) 244

/-! ## Links -/

/-- The link of a port: half 1 of a split port, else the port's first link. -/
def State.link (s : State) (p h : Nat) : Link := if h = 1 then (s.port p).link1 else (s.port p).link0
/-- The state with a link replaced. -/
def State.setLink (s : State) (p h : Nat) (l : Link) : State :=
  if h = 1 then s.setPort p { s.port p with link1 := l } else s.setPort p { s.port p with link0 := l }

/-- The INDEX or SUB that names a half in an event: 2 for a full port (R457). -/
def halfCode (s : State) (p h : Nat) : Nat := if (s.port p).split then h else 2

/-- A flit with this header word and payload (R290). -/
def flitBytes (head : Nat) (payload : List Byte) : List Byte :=
  let body := leBytes 8 head ++ fit 0#8 244 payload
  body ++ leBytes 4 (crc32c body)

/-- A flit that carries payload and acknowledges (R290). -/
def mkFlit (seq ack : Nat) (payload : List Byte) : List Byte :=
  flitBytes (fld seq 15 0 + fld ack 31 16 + fld 1 32 32) payload

/-- ACK_SEQ of a link: the last SEQ accepted in order. -/
def ackSeq (l : Link) : Nat := (l.rxSeq + 65535) % 65536

/-- The acknowledgement in a link's flits: ACK_EN once a flit has been accepted. -/
def ackFields (l : Link) : Nat := fld (ackSeq l) 31 16 + fld (b2n l.accepted) 32 32

/-- A numbered flit of a link. -/
def dataFlit (l : Link) (seq : Nat) (payload : List Byte) : List Byte := flitBytes (fld seq 15 0 + ackFields l) payload

/-- An idle flit: acknowledgement, NAK and returned credits. -/
def idleFlit (l : Link) (nak : Bool) (vl credits : Nat) : List Byte :=
  flitBytes (ackFields l + fld (b2n nak) 33 33 + fld 1 34 34 + fld vl 37 35 + fld credits 47 38) []

/-- May this lane send on the link (R298, R316)? -/
def laneOpen (l : Link) (vl : Nat) : Bool := l.state == 3 || (l.state == 6 && vl == 4)

/-- The heads a link may send: the first packet of each input and lane whose lane is open and has
credits for all its flits, while the replay buffer has room (R291, R293, R296). -/
def sendable (l : Link) : List Queued :=
  let heads := l.queue.foldl (fun acc q =>
    if acc.any (fun r => r.input == q.input && pVl r.pkt == pVl q.pkt) then acc else acc ++ [q]) []
  heads.filter fun q =>
    laneOpen l (pVl q.pkt) && decide (packetFlits q.pkt ≤ nth 0 l.credits (pVl q.pkt))
      && decide (l.replay.length + packetFlits q.pkt ≤ 4096)

/-- Does head a go before head b at a crossbar output (R296): management first, then the order of R213, then the lower
lane, then the first input at or after the pointer? -/
def sendsFirst (ptr : Nat) (a b : Queued) : Bool :=
  let ma := pVl a.pkt == 4
  let mb := pVl b.pkt == 4
  let ia := (a.input + 20 - ptr % 20) % 20
  let ib := (b.input + 20 - ptr % 20) % 20
  if ma != mb then ma
  else if !ma && dryBefore a.tdry b.tdry then true
  else if !ma && dryBefore b.tdry a.tdry then false
  else if pVl a.pkt ≠ pVl b.pkt then decide (pVl a.pkt < pVl b.pkt)
  else decide (ia ≤ ib)

/-- The best of a list by a total preference. -/
def best {α : Type} (better : α → α → Bool) : List α → Option α
  | [] => none
  | a :: r => match best better r with
    | none => some a
    | some b => if better a b then some a else some b

/-- The time-to-dry of a t_dry, saturated (R214). -/
def ttdOf (tdry : Int) (now : Nat) : Int := min (max (tdry - now) (-8388608)) 8388607

/-- The packet with its TTD at departure (R214). -/
def stampTtd (tdry : Option Int) (now : Nat) (p : Packet) : Packet :=
  match tdry with
  | some d => { p with w0 := word (bits p.w0.toNat 39 0 + fld (toBits (ttdOf d now) 24) 63 40) }
  | none => p

/-- Sends one packet of a link as flits: each is numbered and kept for replay, and uses one credit; HOPS rises
(R290, R291, R293, R301). -/
def sendNow (p h : Nat) (q : Queued) (s : State) : State :=
  let l := s.link p h
  let pkt := stampTtd q.tdry s.now (bumpHops q.pkt)
  let bytes := packetBytes pkt
  let n := packetFlits pkt
  let flits := (upto n).map fun i =>
    let seq := (l.txSeq + i) % 65536
    (seq, dataFlit l seq ((bytes.drop (244 * i)).take 244), 0)
  let vl := pVl pkt
  let out : Bool := nth 0 l.credits vl ≤ n
  let l := { l with
    creditAt := if out then put l.creditAt vl s.now else l.creditAt
    stalled := if out then put l.stalled vl false else l.stalled
    ptr := (q.input + 1) % 20
    txSeq := (l.txSeq + n) % 65536
    replay := l.replay ++ flits
    flight := l.flight ++ [((l.txSeq + n - 1) % 65536, pkt)]
    credits := put l.credits vl (nth 0 l.credits vl - n)
    queue := l.queue.erase q }
  let s := s.setLink p h l
  flits.foldl (fun s f => s.emit (.flit p h f.2.1)) s

/-- A link sends what it may, in the order of R296. -/
def pump (p h : Nat) : Nat → State → State
  | 0, s => s
  | fuel + 1, s =>
    match best (sendsFirst (s.link p h).ptr) (sendable (s.link p h)) with
    | none => s
    | some q => pump p h fuel (sendNow p h q s)

/-- A packet joins the queue of a link, which sends what it may. -/
def enqueue (p h : Nat) (q : Queued) (s : State) : State :=
  let l := s.link p h
  let vl := pVl q.pkt
  let l := if l.queue.any (fun r => pVl r.pkt == vl) then l
    else { l with creditAt := put l.creditAt vl s.now, stalled := put l.stalled vl false }
  pump p h (l.queue.length + 1) (s.setLink p h { l with queue := l.queue ++ [q] })

/-! ## Routing (R298 to R301) -/

/-- The half of a port that serves destination d: the routing entry's HALF bit on a split port. -/
def routeHalf (s : State) (d p : Nat) : Nat :=
  if (s.port p).split then b2n (bit (aget 0 d s.fab.route) (16 + p)) else 0

/-- Ports that the routing table gives destination d, in one of some link states, ascending. -/
def routePorts (s : State) (d : Nat) (states : List Nat) : List Nat :=
  if s.deviceId = 0xFFF then []
  else (upto 16).filter fun p => bit (aget 0 d s.fab.route) p && states.contains (s.link p (routeHalf s d p)).state

/-- Ports eligible for destination d, ascending (R298). -/
def eligible (s : State) (d : Nat) : List Nat := routePorts s d [3]

/-- The ports that ordered packets to d are pinned over: one held for a retrain keeps its packets (R299, R314). (DEDUCED,
log entry 47) -/
def pinPorts (s : State) (d : Nat) : List Nat := routePorts s d [3, 4]

/-- The credits a lane of an eligible port holds. -/
def laneCredits (s : State) (d vl p : Nat) : Nat := nth 0 (s.link p (routeHalf s d p)).credits vl

/-- The eligible ports whose lane holds the most credits. -/
def mostCredits (s : State) (d vl : Nat) (ps : List Nat) : List Nat :=
  let top := ps.foldl (fun m p => max m (laneCredits s d vl p)) 0
  ps.filter fun p => laneCredits s d vl p == top

/-- The port of an unordered packet: most credits, ties by the rotating pointer (R299). -/
def unorderedPort (s : State) (d vl : Nat) (ps : List Nat) : Option Nat :=
  let ties := mostCredits s d vl ps
  match ties.find? (fun p => decide (s.fab.tie ≤ p)) with
  | some p => some p
  | none => ties.head?

/-- The port of an ordered packet (R299). -/
def orderedPort (src d vl : Nat) (ps : List Nat) : Option Nat :=
  let h := (src * 32768 + d * 8 + vl) % 251
  ps[h % ps.length]?

/-- The requester of a packet learns that its request ended with an error: a request of this device ends
here, another device's request is answered. -/
def answerPacket (p : Packet) (status : Nat) : Packet :=
  mkPacket 0x1F (pOrdered p) (if pBulk p then none else some 0) (pSrc p) (pDst p) (pAddr p) 1 (pReqId p)
    status (pAux p) false 0 [0#8]

/-- Is the packet a request that is answered (R304)? -/
def isRequest (p : Packet) : Bool := (1 ≤ pOpc p && pOpc p ≤ 0x0A) || pOpc p == 0x0D || pOpc p == 0x0E

/-- An outstanding request ends: it leaves the table and its issuer is answered (R318). -/
def endRequest (id : Nat) (r : Resp) (s : State) : State :=
  match s.fab.outs.find? (fun o => o.id == id) with
  | none => s
  | some o =>
    answer ⟨o.who, o.addr, o.cont, o.dst⟩ r
      { s with fab := { s.fab with outs := s.fab.outs.filter fun x => x.id != id } }

/-- Puts a packet on the port that routing chooses, none where no port is eligible. -/
def routeTo (q : Queued) (s : State) : Option State :=
  let d := pDst q.pkt
  let ps := if pOrdered q.pkt then pinPorts s d else eligible s d
  let port := if pOrdered q.pkt then orderedPort (pSrc q.pkt) d (pVl q.pkt) ps
    else unorderedPort s d (pVl q.pkt) ps
  match port with
  | none => none
  | some p =>
    if pHops q.pkt + 1 > s.hopLimit then
      let s := raiseEv (.fport p) evFabHopLimit (detUnit d (pSrc q.pkt) 0) s
      some (if isRequest q.pkt && pSrc q.pkt == s.deviceId then endRequest (pReqId q.pkt) (.err evFabHopLimit) s
        else s)
    else
      let tied : Bool := 1 < (mostCredits s d (pVl q.pkt) ps).length
      let s := if pOrdered q.pkt || !tied then s else { s with fab := { s.fab with tie := (p + 1) % 16 } }
      some (enqueue p (routeHalf s d p) q s)

/-- FAB_NO_ROUTE for a destination (R298). -/
def raiseNoRoute (d : Nat) (s : State) : State := raiseEv .fab evFabNoRoute (detUnit d 0 0) s

/-- The error response of a device that cannot pass a request on, with the request's t_dry, sent once: one without an
eligible port is dropped with FAB_NO_ROUTE (R298). -/
def respondError (p : Packet) (tdry : Option Int) (status : Nat) (s : State) : State :=
  if !isRequest p then s
  else if pSrc p = s.deviceId then endRequest (pReqId p) (.err status) s
  else (routeTo ⟨answerPacket p status, tdry, 16, false⟩ s).getD (raiseNoRoute (pSrc p) s)

/-- Routes a packet; with no eligible port it is not sent, FAB_NO_ROUTE is raised and a request is
answered (R298). A request that hops too far is answered too (R301). -/
def sendPacket (q : Queued) (s : State) : State :=
  match routeTo q s with
  | some t =>
    if pHops q.pkt + 1 > s.hopLimit && isRequest q.pkt && pSrc q.pkt != s.deviceId then
      respondError q.pkt q.tdry evFabHopLimit t
    else t
  | none => respondError q.pkt q.tdry evFabNoRoute (raiseNoRoute (pDst q.pkt) s)

/-- Is a new ordered request to d held: the set of ports has changed and earlier ordered requests of this device are
unanswered, `own` apart, or others are held already (R300)? (DEDUCED, log entry 47) -/
def repinHolds (s : State) (d : Nat) (own : Option Nat) : Bool :=
  let earlier := s.fab.outs.any fun o => o.dst == d && o.ordered && some o.id != own
  let changed := match alookup d s.fab.pinned with
    | some l => l != pinPorts s d
    | none => false
  (changed && earlier) || s.fab.repin.any (fun r => pDst r.pkt == d)

/-- Sends an ordered request over the set of ports as it is now. -/
def sendPinned (q : Queued) (s : State) : State :=
  let d := pDst q.pkt
  sendPacket q { s with fab := { s.fab with pinned := aset d (pinPorts s d) s.fab.pinned } }

/-- Sends an ordered request of this device, or holds it at its gateway (R300). -/
def sendOrdered (q : Queued) (s : State) : State :=
  if repinHolds s (pDst q.pkt) (some (pReqId q.pkt)) then { s with fab := { s.fab with repin := s.fab.repin ++ [q] } }
  else sendPinned q s

/-- After an answer: a held ordered request whose earlier ones are all answered is sent (R300). -/
def releaseRepin (d : Nat) (s : State) : State :=
  let held := s.fab.repin.filter fun r => pDst r.pkt == d
  let waiting := s.fab.outs.any fun o =>
    o.dst == d && o.ordered && !held.any (fun r => pReqId r.pkt == o.id)
  if waiting || held.isEmpty then s
  else
    let go := fun (o : OutReq) => if held.any (fun r => pReqId r.pkt == o.id) then { o with t0 := s.now } else o
    let s := { s with fab := { s.fab with
      repin := s.fab.repin.filter fun r => pDst r.pkt != d
      outs := s.fab.outs.map go
      pinned := aset d (pinPorts s d) s.fab.pinned } }
    each held sendPacket s

/-- A request identifier that no outstanding request has. -/
def freeReqId (s : State) : Nat :=
  (((upto 16385).map fun i => (s.fab.nextId + i) % 65536).find? fun i =>
    s.fab.outs.all fun o => o.id != i).getD s.fab.nextId

/-- A packet of this device that is not routed leaves on a port: a management packet, or one of a fan-out tree
(R301, R307, R309, R316). (DEDUCED, log entry 48) -/
def sendOnPort (p h : Nat) (q : Queued) (s : State) : State :=
  if pHops q.pkt + 1 > s.hopLimit then
    let s := raiseEv (.fport p) evFabHopLimit (detUnit (pDst q.pkt) (pSrc q.pkt) 0) s
    if isRequest q.pkt then endRequest (pReqId q.pkt) (.err evFabHopLimit) s else s
  else enqueue p h { q with bound := true } s

/-- The gateway at which a request of an issuer enters the crossbar, as an input of it (R295). -/
def gatewayOf : Issuer → Nat
  | .steward c => 16 + tileOf c | .arrays c _ => 16 + tileOf c | .side c _ => 16 + tileOf c
  | .vector c _ => 16 + tileOf c | .strand c _ _ => 16 + tileOf c
  | .splice k _ => 16 + k / 3 | .aux k => 16 + k / 3 | .sender k => 16 + k / 3
  | _ => 16

/-- The gateway of the tile that holds a local address (R295). -/
def gatewayAt (a : Nat) : Nat :=
  if a < 0xC000000000 then 16 + a / 0x1000000000 / 3
  else if a < 0xC0A0000000 then 16 + tileOf ((a - 0xC000000000) / 0x40000)
  else if 0xC800000000 ≤ a ∧ a < 0xC8A0000000 then 16 + tileOf ((a - 0xC800000000) / 0x40000)
  else if 0xCC00000000 ≤ a ∧ a < 0xCF00000000 then 16 + (a - 0xCC00000000) / 0x40000000 / 3
  else if 0xD000000000 ≤ a ∧ a < 0xD00A000000 then 16 + tileOf ((a - 0xD000000000) / 0x4000)
  else 16

/-- A request departs: it is recorded as outstanding and sent. -/
def depart (o : OutReq) (q : Queued) (s : State) : State :=
  let id := freeReqId s
  let s := { s with fab := { s.fab with
    outs := s.fab.outs ++ [{ o with id := id, t0 := s.now }], nextId := (id + 1) % 65536 } }
  let q := { q with pkt := { q.pkt with w2 := word (q.pkt.w2.toNat - pReqId q.pkt + id) } }
  match o.via with
  | some p => sendOnPort p 0 q s
  | none => if o.ordered then sendOrdered q s else sendPacket q s

/-- A request of this device. While 16,384 are outstanding it waits at its gateway (R297). -/
def requestOut (o : OutReq) (q : Queued) (s : State) : State :=
  if s.fab.outs.length ≥ 16384 || !s.fab.gateway.isEmpty then
    { s with fab := { s.fab with gateway := s.fab.gateway ++ [(o, q)] } }
  else depart o q s

/-- A request of this device to another, with its t_dry. -/
def request (who : Issuer) (opc dst addr len aux operand : Nat) (data : List Byte) (ordered : Bool)
    (tdry : Option Int) (cont : Cont) (s : State) : State :=
  let o : OutReq := ⟨0, dst, opc, s.now, who, addr, ordered, cont, none⟩
  requestOut o ⟨mkPacket opc ordered (tdry.map fun _ => 0) dst s.deviceId addr len 0 0 aux false operand data,
    tdry, gatewayOf who, false⟩ s

/-- The oldest request that waits at a gateway departs when an identifier is free. -/
def gatewayNext (s : State) : State :=
  match s.fab.gateway with
  | [] => s
  | (o, q) :: r =>
    if s.fab.outs.length ≥ 16384 then s else depart o q { s with fab := { s.fab with gateway := r } }

/-- A RESPONSE to another device leaves (R304), with the t_dry of its request (R296). -/
def sendResponse (dst reqId addr status operand : Nat) (ordered : Bool) (tdry : Option Int)
    (data : List Byte) (s : State) : State :=
  let d := if data.isEmpty then [0#8] else data
  sendPacket ⟨mkPacket 0x1F ordered (tdry.map fun _ => 0) dst s.deviceId addr d.length reqId status 0 false
    operand d, tdry, gatewayAt addr, false⟩ s

/-- What may leave once a request has ended: those that wait for an identifier, and those held for a change of their
ports (R297, R300). -/
def requestsOn (s : State) : State :=
  let s := each s.fab.gateway (fun _ s => gatewayNext s) s
  each ((s.fab.repin.map fun q => pDst q.pkt).eraseDups) releaseRepin s

end Sys2Proof.Machine
end

