-- ==== Sys2Proof/Machine/Links.lean ====
section
/-! DEFINITION. What happens on a fabric link: flits received, acknowledged and replayed (R291, R293),
retraining, lane breaches, retirement and reinstatement (R314, R315, R317), link-up and LINK HELLO
(R288, R316), and the link's windows and watchdogs. -/

namespace Sys2Proof.Machine

/-- Is the link one the port has (R289)? -/
def linkExists (s : State) (p h : Nat) : Bool := decide (p < 16) && (h == 0 || (h == 1 && (s.port p).split))

/-- The lanes of a link: half h of a split port, the intact half of a degraded one, or all eight. -/
def linkLanes (s : State) (p h : Nat) : List Nat :=
  let f := s.port p
  if f.split then (upto 4).map (4 * h + ·)
  else if f.mode = 1 then upto 4
  else if f.mode = 2 then (upto 4).map (4 + ·)
  else upto 8

/-- The link of a lane. -/
def laneLink (s : State) (p lane : Nat) : Nat := if (s.port p).split then lane / 4 else 0

/-- FPORT_CFG.EN (R321). -/
def portEnabled (s : State) (p : Nat) : Bool := s.field (.fport p) 0x100 0 0 == 1

/-- Credits for the partner's whole receive buffers (R292). -/
def fullCredits : List Nat := [512, 768, 384, 256, 128]

/-- A link in a state, with nothing sent or received on it yet. -/
def freshLink (s : State) (state : Nat) : Link :=
  { state := state, credits := fullCredits, creditAt := [s.now, s.now, s.now, s.now, s.now] }

/-- LINK HELLO of this device on a link (R316). -/
def helloPacket (s : State) (p h : Nat) : Packet :=
  mkPacket 0x10 false none 0xFFF s.deviceId 0 8 0 0 0 false 0
    (leBytes 8 (s.deviceId + p * 2 ^ 16 + h * 2 ^ 20))

/-- A link says hello. -/
def sayHello (p h : Nat) (s : State) : State := sendOnPort p h ⟨helloPacket s p h, none, 16, true⟩ s

/-- The link carries management traffic only and says hello (R316). -/
def greet (p h : Nat) (s : State) : State :=
  let l := s.link p h
  sayHello p h (s.setLink p h { l with state := 6, neighbour := none, attempts := 0, failedLanes := [] })

/-- A retrain begins: the link is held (R314). -/
def beginRetrain (p h : Nat) (s : State) : State :=
  let l := s.link p h
  s.setLink p h { l with state := 4, attempts := 0, failedLanes := linkLanes s p h }

/-- The packets that wait at a link that ends: those bound to it wait on, those of the management lane are gone, the others
are routed again. -/
def reroute (waiting : List Queued) (p h : Nat) (s : State) : State :=
  let stay := fun (q : Queued) => q.bound && pVl q.pkt != 4
  let s := s.setLink p h { s.link p h with queue := waiting.filter stay }
  each (waiting.filter fun q => !q.bound) sendPacket s

/-- The t_dry of a packet in flight, by the TTD it left with. -/
def flightDry (q : Packet) (s : State) : Option Int := if pBulk q then none else some (s.now + pTtd q)

/-- What a retired link loses: every packet with an unacknowledged flit; its requests are answered with
FAB_PACKET_LOST, raised once (R317). -/
def loseFlight (p h : Nat) (s : State) : State :=
  let l := s.link p h
  let lost := (l.flight.map (·.2)).filter isRequest
  let waiting := l.queue
  let s := s.setLink p h { l with flight := [], replay := [], queue := [], partialRx := [], txSeq := 0, rxSeq := 0 }
  let s := each lost (fun q => respondError q (flightDry q s) evFabPacketLost) s
  let s := reroute waiting p h s
  if lost.isEmpty then s else raiseEv (.fport p) evFabPacketLost (detUnit 0 0 lost.length) s

/-- The link is retired (R315). -/
def retireLink (p h : Nat) (s : State) : State :=
  let code := halfCode s p h
  let s := s.setLink p h { s.link p h with state := 5 }
  loseFlight p h (raiseEv (.fport p) evFabPortRetired (detUnit code 0 0) s)

/-- Lanes of a link breach (R315): a full port goes on as a half-port on the half without a dead lane and
sends its replay buffer again; otherwise the link is retired. -/
def breachLanes (p h : Nat) (lanes : List Nat) (s : State) : State :=
  let f := s.port p
  let dead := f.dead ++ lanes.filter fun l => !f.dead.contains l
  let s := s.setPort p { f with dead := dead }
  let half0 := dead.all (4 ≤ ·)
  let half1 := dead.all (· < 4)
  if !f.split && f.mode == 0 && (half0 || half1) then
    let s := s.setPort p { s.port p with mode := if half0 then 1 else 2 }
    let s := each lanes (fun l => raiseEv (.fport p) evFabLaneBreach (detUnit l 0 0)) s
    (s.link p h).replay.foldl (fun s r => s.emit (.flit p h r.2.1)) s
  else retireLink p h s

/-- Replays every flit after `ack` (R291): each counts in FPORT_RETRY; a flit that reaches REPLAY_LIMIT
in succession retrains the link. -/
def replayAll (p h : Nat) (s : State) : State :=
  let l := s.link p h
  let limit := s.field (.fport p) 0x118 47 40
  let again := l.replay.map fun r => (r.1, r.2.1, r.2.2 + 1)
  let s := s.setLink p h { l with replay := again }
  let s := s.setPort p { s.port p with retry := ((s.port p).retry + again.length) % 2 ^ 64 }
  let s := again.foldl (fun s r => s.emit (.flit p h r.2.1)) s
  if again.any (fun r => limit ≤ r.2.2) then
    beginRetrain p h (s.setLink p h { s.link p h with replay := again.map fun r => (r.1, r.2.1, 0) })
  else s

/-- Flits up to SEQ `ack` are acknowledged. -/
def acknowledge (ack : Nat) (l : Link) : Link :=
  if l.replay.any (fun r => r.1 == ack) then
    let rest := (l.replay.dropWhile fun r => r.1 != ack).drop 1
    { l with replay := rest
             flight := l.flight.filter fun f => rest.any fun r => r.1 == f.1 }
  else l

/-- The acknowledgement, NAK and credit fields of a good flit (R290, R291, R293). -/
def linkFields (p h head : Nat) (s : State) : State :=
  let l := s.link p h
  let l := if bit head 32 then acknowledge (bits head 31 16) l else l
  let vl := bits head 37 35
  let n := bits head 47 38
  let l := if n ≠ 0 && decide (vl < 5) then
      { l with credits := put l.credits vl (nth 0 l.credits vl + n), creditAt := put l.creditAt vl s.now
               stalled := put l.stalled vl false }
    else l
  let s := s.setLink p h l
  let s := if bit head 33 then replayAll p h s else s
  pump p h ((s.link p h).queue.length + 1) s

/-- A flit accepted in order: its payload joins the packet being received; a complete packet enters the
receive buffer (R290, R291). A link that carries management traffic only discards a packet of another lane,
whose room is free again (R316; DEDUCED, log entry 61). -/
def acceptPayload (p h : Nat) (payload : List Byte) (s : State) : State :=
  let l := s.link p h
  let got := l.partialRx ++ payload
  let q := parseHeader got
  let size := packetSize q
  let l := { l with rxSeq := (l.rxSeq + 1) % 65536, accepted := true, nakSent := false }
  let whole : Bool := size ≤ got.length
  let taken := whole && laneOpen l (pVl q)
  let l := if taken then
      { l with partialRx := [], rx := l.rx ++ [{ q with data := (got.take size).drop 32 }], rxAt := l.rxAt ++ [s.now] }
    else { l with partialRx := if whole then [] else got }
  (s.setLink p h l).emit (.flit p h
    (if whole && !taken then idleFlit l false (pVl q) (packetFlits q) else idleFlit l false 0 0))

/-- A flit as it arrives: good and expected, idle, or discarded with one NAK (R291). -/
def receiveFlit (p h : Nat) (flit : List Byte) (s : State) : State :=
  let l := s.link p h
  let head := leNat (flit.take 8)
  let good := flit.length == 256 && crc32c (flit.take 252) == leNat (flit.drop 252)
  if good && bit head 34 then linkFields p h head s
  else if good && bits head 15 0 == l.rxSeq then
    linkFields p h head (acceptPayload p h ((flit.drop 8).take 244) s)
  else if l.nakSent then s
  else (s.setLink p h { l with nakSent := true }).emit (.flit p h (idleFlit l true 0 0))

/-- The error window of now: with a new one the lanes' counts start anew (R315). -/
def rollLanes (p : Nat) (s : State) : State :=
  let w := s.field (.fport p) 0x118 31 0
  let f := s.port p
  let i := if w = 0 then 0 else s.now / w
  if f.window = i then s else s.setPort p { f with window := i, uncorr := [] }

/-- FEC findings of the codewords that carried a flit (R315): corrected symbols are counted, uncorrectable
codewords counted per lane and window. -/
def fecFindings (p corrected : Nat) (bad : List Nat) (s : State) : State :=
  let s := rollLanes p s
  let f := s.port p
  let s := s.setPort p { f with
    corrSym := (f.corrSym + corrected) % 2 ^ 64
    uncorr := bad.foldl (fun m l => aset l (aget 0 l m + 1) m) f.uncorr }
  let limit := s.field (.fport p) 0x118 63 48
  let exceeded := bad.eraseDups.filter fun l =>
    decide (limit < aget 0 l (s.port p).uncorr) && !(s.port p).dead.contains l
  if s.field (.fport p) 0x118 31 0 = 0 then s
  else each ((exceeded.map (laneLink s p)).eraseDups)
    (fun h s => breachLanes p h (exceeded.filter fun l => laneLink s p l == h) s) s

/-- A buffered packet is taken from the receive buffer and its flits' credits return (R293). -/
def takeReceived (p : Nat) (pkt : Packet) (s : State) : State :=
  let go (h : Nat) (s : State) : Option State :=
    let l := s.link p h
    if l.rx.contains pkt then
      let i := l.rx.findIdx (· == pkt)
      let s := s.setLink p h { l with rx := l.rx.erase pkt, rxAt := l.rxAt.take i ++ l.rxAt.drop (i + 1) }
      some (s.emit (.flit p h (idleFlit l false (pVl pkt) (packetFlits pkt))))
    else none
  match go 0 s with
  | some t => t
  | none => (go 1 s).getD s

/-- The attempt of a link retrain ends (R314, R315). (DEDUCED, log entry 46) -/
def retrainEnd (p h : Nat) (failed : List Nat) (s : State) : State :=
  let l := s.link p h
  let n := l.attempts + 1
  let failed := failed.filter (linkLanes s p h).contains
  if failed.isEmpty then
    let s := raiseEv (.fport p) evFabLinkRetrain (detUnit (halfCode s p h) n 0) s
    greet p h s
  else
    let all := l.failedLanes.filter failed.contains
    let s := s.setLink p h { l with attempts := n, failedLanes := all }
    if n < 3 then s
    else
      let s := breachLanes p h (if all.isEmpty then failed else all) s
      if (s.link p h).state = 5 then s else greet p h s

/-- What a link carries with a neighbour known: data, unless one of the two has no ID or both have the same, which raises
FAB_ID_CONFLICT (R316). -/
def meetNeighbour (p h nid : Nat) (s : State) : State :=
  let l := s.link p h
  let own := s.deviceId
  let mgmt := own == 0xFFF || nid == 0xFFF || nid == own
  let s := s.setLink p h { l with state := if mgmt then 6 else 3 }
  let s := if nid == own then raiseEv (.fport p) evFabIdConflict (detUnit nid (halfCode s p h) 0) s else s
  pump p h ((s.link p h).queue.length + 1) s

/-- A neighbour says hello (R316). -/
def helloFrom (p h : Nat) (pkt : Packet) (s : State) : State :=
  let v := leNat pkt.data
  meetNeighbour p h (bits v 11 0) (s.setLink p h { s.link p h with neighbour := some (bits v 11 0, bits v 19 16) })

/-- Does a READ or WRITE reach beyond one aligned 4 KiB block (R303)? -/
def crossesBlock (pkt : Packet) : Bool :=
  (pOpc pkt == 0x01 || pOpc pkt == 0x02) && decide (pAddr pkt % 4096 + pLen pkt > 4096)

/-- Is a packet malformed for its operation (R303, R304): lane, reserved fields or a block crossed? The spec
does not name the answer to a crossing (DEDUCED, log entry 60). -/
def malformed (pkt : Packet) : Bool :=
  !opcKnown (pOpc pkt) || pVl pkt != opcVl (pOpc pkt) || !pReservedOk pkt || crossesBlock pkt

/-- FAB_FORMAT of a packet that arrived on a port (R457). -/
def raiseFormat (p : Nat) (pkt : Packet) (s : State) : State :=
  raiseEv (.fport p) evFabFormat (detUnit p (pOpc pkt) (pSrc pkt)) s

/-- LINK_HELLO on a link that is up or management only. -/
def linkHello (p h : Nat) (pkt : Packet) (s : State) : State :=
  let s := takeReceived p pkt s
  if malformed pkt || pOpc pkt != 0x10 then raiseFormat p pkt s else helloFrom p h pkt s

/-- Has a link no lanes to run on: a dead one in the half, or in both halves of a full port (R315)? -/
def linkRetired (f : FPort) (h : Nat) : Bool :=
  if f.split then f.dead.any (· / 4 == h) else f.dead.any (· < 4) && f.dead.any (4 ≤ ·)

/-- The mode in which a full port runs on the lanes it has left (R315, R321). -/
def modeOf (split : Bool) (dead : List Nat) : Nat :=
  if split || dead.isEmpty then 0 else if dead.all (4 ≤ ·) then 1 else if dead.all (· < 4) then 2 else 0

/-- What a link that ends, without being retired, leaves: packets under way are lost, those that wait are
routed again. -/
def dropLink (p h state : Nat) (s : State) : State :=
  reroute (s.link p h).queue p h (s.setLink p h (freshLink s state))

/-- Reinstatement of a retired link at full width (R315); it retrains unless its port is disabled. -/
def reinstate (p h : Nat) (s : State) : State :=
  let f := s.port p
  let mine := if f.split then (fun l : Nat => l / 4 == h) else (fun _ => true)
  let s := s.setPort p { f with dead := f.dead.filter (fun l => !mine l), mode := 0
                                uncorr := f.uncorr.filter fun u => !mine u.1 }
  if portEnabled s p then beginRetrain p h (dropLink p h 4 s) else s

/-- The link comes up (R288, R316): its partner's buffers are empty. -/
def linkUp (p h : Nat) (s : State) : State :=
  greet p h (s.setLink p h { freshLink s 2 with queue := (s.link p h).queue })

/-- A link of a port whose configuration has changed: disabled, retired still (R470), or in this state. -/
def restart (p h state : Nat) (s : State) : State :=
  let state := if !portEnabled s p then 0 else if linkRetired (s.port p) h then 5 else state
  let s := dropLink p h state s
  if state = 4 then beginRetrain p h s else s

/-- FPORT_CFG has applied (R321): EN takes the port out of service or back into training; a change of SPLIT
makes new links, which retrain (R289). (DEDUCED, log entry 45) -/
def portConfigured (p : Nat) (wasEn wasSplit : Bool) (s : State) : State :=
  let split := s.field (.fport p) 0x100 1 1 == 1
  let links := if split then [0, 1] else [0]
  if split = wasSplit then
    if portEnabled s p = wasEn then s else each links (fun h => restart p h 2) s
  else
    let f := s.port p
    let s := dropLink p 1 1 (s.setPort p { f with split := split, mode := modeOf split f.dead })
    each links (fun h => restart p h (if wasEn then 4 else 2)) s

/-- CHIP_IDENT has applied (R27, R319): every link that is up says hello again, and carries what its neighbour, where it
is known, allows with the new ID (R316). -/
def identApplied (s : State) : State :=
  each (upto 16) (fun p => each [0, 1] (fun h s =>
    if linkExists s p h && ((s.link p h).state == 3 || (s.link p h).state == 6) then
      let s := sayHello p h s
      match (s.link p h).neighbour with
      | some (nid, _) => meetNeighbour p h nid s
      | none => s
    else s)) s

/-- A lane that has had packets waiting and no credits since CREDIT_STALL ticks (R293). -/
def creditStalled (s : State) (p h vl : Nat) : Bool :=
  let l := s.link p h
  let limit := s.field (.fport p) 0x100 63 32
  linkExists s p h && decide (vl < 5) && limit != 0 && nth 0 l.credits vl == 0 && l.queue.any (fun q => pVl q.pkt == vl)
    && !nth false l.stalled vl && s.past (nth 0 l.creditAt vl) limit

end Sys2Proof.Machine
end

