-- ==== Sys2Proof/Machine/Float.lean ====
section
/-! DEFINITION. The number formats of R38 and R39, exact values, the two rounding modes (R58, R59),
the conversions of R40, R41, R46 and R208, and correctly rounded FP32 arithmetic.

A value is held exactly (sign, magnitude, power of two), every operation is exact, and one rounding
at the end gives the bits: the discipline of R57. -/

namespace Sys2Proof.Machine

/-- The element formats, numbered as R123 numbers them. -/
inductive Fmt where
  | fp32 | bf16 | fp16 | e4m3 | e5m2 | s4 | s8 | s16 | s32 | s4x | s8x
deriving DecidableEq, Repr

/-- The format a code of R123 names; codes 11–15 are reserved. -/
def Fmt.ofCode : Nat → Option Fmt
  | 0 => some .fp32 | 1 => some .bf16 | 2 => some .fp16 | 3 => some .e4m3 | 4 => some .e5m2
  | 5 => some .s4 | 6 => some .s8 | 7 => some .s16 | 8 => some .s32 | 9 => some .s4x | 10 => some .s8x
  | _ => none

/-- Bits of one element (R38, R39). -/
def Fmt.width : Fmt → Nat
  | .fp32 | .s32 => 32
  | .bf16 | .fp16 | .s16 => 16
  | .e4m3 | .e5m2 | .s8 | .s8x => 8
  | .s4 | .s4x => 4

/-- Is it one of the floating-point formats of R39? -/
def Fmt.isFloat : Fmt → Bool
  | .fp32 | .bf16 | .fp16 | .e4m3 | .e5m2 => true
  | _ => false

/-- Bytes that n consecutive elements take, the last one filled up (R245). -/
def Fmt.bytes (f : Fmt) (n : Nat) : Nat := cdiv (n * f.width) 8

/-- Significand bits, mantissa field included, of a float format. -/
def Fmt.prec : Fmt → Nat
  | .fp32 => 24 | .bf16 => 8 | .fp16 => 11 | .e4m3 => 4 | .e5m2 => 3 | _ => 0

/-- Exponent bias (R39); the smallest normal exponent is 1 − bias. -/
def Fmt.bias : Fmt → Nat
  | .fp32 | .bf16 => 127 | .fp16 | .e5m2 => 15 | .e4m3 => 7 | _ => 0

/-- The smallest normal exponent. -/
def Fmt.emin (f : Fmt) : Int := 1 - (f.bias : Int)

/-- The canonical NaN (R39). -/
def Fmt.nanBits : Fmt → Nat
  | .fp32 => 0x7FC00000 | .bf16 => 0x7FC0 | .fp16 => 0x7E00 | .e4m3 => 0x7F | .e5m2 => 0x7E | _ => 0

/-- The bits of +infinity; 0x7F of E4M3 is no infinity and is never asked for (R40). -/
def Fmt.infBits : Fmt → Nat
  | .fp32 => 0x7F800000 | .bf16 => 0x7F80 | .fp16 => 0x7C00 | .e5m2 => 0x7C | _ => 0

/-- The bits of the largest finite value (R39). -/
def Fmt.maxBits : Fmt → Nat
  | .fp32 => 0x7F7FFFFF | .bf16 => 0x7F7F | .fp16 => 0x7BFF | .e4m3 => 0x7E | .e5m2 => 0x7B | _ => 0

/-- An exact value: NaN, an infinity, or (−1)^neg · m · 2^e. A zero keeps its sign. -/
inductive FV where
  | nan
  | inf (neg : Bool)
  | fin (neg : Bool) (m : Nat) (e : Int)
deriving DecidableEq, Repr

namespace FV

/-- +0.0. -/
def zero : FV := .fin false 0 0

/-- An integer as an exact value. -/
def ofInt (i : Int) : FV := .fin (i < 0) i.natAbs 0

/-- i · 2^e. -/
def ofScaled (i e : Int) : FV := .fin (i < 0) i.natAbs e

/-- Is it ±0? -/
def isZero : FV → Bool
  | .fin _ 0 _ => true
  | _ => false

/-- Is it a NaN? -/
def isNan : FV → Bool
  | .nan => true
  | _ => false

/-- Is it finite? -/
def isFin : FV → Bool
  | .fin .. => true
  | _ => false

/-- Is it an infinity? -/
def isInf : FV → Bool
  | .inf _ => true
  | _ => false

/-- The sign bit; a NaN counts as positive. -/
def sign : FV → Bool
  | .nan => false
  | .inf n => n
  | .fin n _ _ => n

/-- Negation. -/
def neg : FV → FV
  | .nan => .nan
  | .inf n => .inf (!n)
  | .fin n m e => .fin (!n) m e

/-- Magnitude. -/
def abs : FV → FV
  | .nan => .nan
  | .inf _ => .inf false
  | .fin _ m e => .fin false m e

/-- Exact scaling by 2^k. -/
def scale (k : Int) : FV → FV
  | .fin n m e => .fin n m (e + k)
  | v => v

/-- The signed integer m·2^(e − b) for an exponent b no greater than e. -/
def toIntAt (n : Bool) (m : Nat) (e b : Int) : Int :=
  let v : Int := (m <<< (e - b).toNat : Nat)
  if n then -v else v

/-- Exact sum (IEEE 754 rules for infinities and for the sign of a zero). -/
def add : FV → FV → FV
  | .nan, _ => .nan
  | _, .nan => .nan
  | .inf a, .inf b => if a = b then .inf a else .nan
  | .inf a, _ => .inf a
  | _, .inf b => .inf b
  | .fin n1 m1 e1, .fin n2 m2 e2 =>
    let b := min e1 e2
    let s := toIntAt n1 m1 e1 b + toIntAt n2 m2 e2 b
    if s = 0 then .fin (n1 && n2) 0 0 else .fin (s < 0) s.natAbs b

/-- Exact product. -/
def mul : FV → FV → FV
  | .nan, _ => .nan
  | _, .nan => .nan
  | .inf a, .inf b => .inf (a != b)
  | .inf a, .fin n m _ => if m = 0 then .nan else .inf (a != n)
  | .fin n m _, .inf b => if m = 0 then .nan else .inf (n != b)
  | .fin n1 m1 e1, .fin n2 m2 e2 => .fin (n1 != n2) (m1 * m2) (e1 + e2)

/-- Quotient of finite values to at least 66 significant bits, its last bit set where it is inexact:
enough for one correct rounding to any format of R39. -/
def div : FV → FV → FV
  | .nan, _ => .nan
  | _, .nan => .nan
  | .inf a, .inf _ => if a then .nan else .nan
  | .inf a, .fin n _ _ => .inf (a != n)
  | .fin n _ _, .inf b => .fin (n != b) 0 0
  | .fin n1 m1 e1, .fin n2 m2 e2 =>
    if m2 = 0 then (if m1 = 0 then .nan else .inf (n1 != n2))
    else
      let k := 66 + Nat.log2 m2
      let q := (m1 <<< k) / m2
      let r := (m1 <<< k) % m2
      .fin (n1 != n2) (2 * q + (if r = 0 then 0 else 1)) (e1 - e2 - k - 1)

/-- Integer square root by Newton steps from above, over `fuel` steps. -/
def isqrtGo (n : Nat) : Nat → Nat → Nat
  | 0, x => x
  | fuel + 1, x =>
    let y := (x + n / x) / 2
    if y < x then isqrtGo n fuel y else x

/-- ⌊√n⌋. -/
def isqrt (n : Nat) : Nat := if n = 0 then 0 else isqrtGo n 300 (2 ^ (Nat.log2 n / 2 + 1))

/-- Square root of a non-negative finite value to at least 66 bits, last bit set where inexact. -/
def sqrt : FV → FV
  | .nan => .nan
  | .inf n => if n then .nan else .inf false
  | .fin n m e =>
    if m = 0 then .fin n 0 0
    else if n then .nan
    else
      let odd : Nat := (e % 2).toNat
      let x := m <<< (140 + odd)
      let r := isqrt x
      .fin false (2 * r + (if r * r = x then 0 else 1)) ((e - odd - 140) / 2 - 1)

/-- Compares two values that are no NaN: the sign of a − b, zeros of either sign being equal. -/
def cmp : FV → FV → Int
  | .inf a, .inf b => if a = b then 0 else if a then -1 else 1
  | .inf a, _ => if a then -1 else 1
  | _, .inf b => if b then 1 else -1
  | .fin n1 m1 e1, .fin n2 m2 e2 =>
    let b := min e1 e2
    let d := toIntAt n1 m1 e1 b - toIntAt n2 m2 e2 b
    if d < 0 then -1 else if d > 0 then 1 else 0
  | _, _ => 0

/-- IEEE equality: false with a NaN (R126). -/
def eq (a b : FV) : Bool := !a.isNan && !b.isNan && cmp a b == 0
/-- IEEE less-than: false with a NaN (R126). -/
def lt (a b : FV) : Bool := !a.isNan && !b.isNan && decide (cmp a b < 0)
/-- IEEE less-or-equal: false with a NaN (R126). -/
def le (a b : FV) : Bool := !a.isNan && !b.isNan && decide (cmp a b ≤ 0)

/-- Minimum by R126: NaN when either operand is NaN, −0.0 below +0.0. -/
def min' (a b : FV) : FV :=
  if a.isNan || b.isNan then .nan
  else if cmp a b < 0 then a else if cmp a b > 0 then b
  else if a.sign then a else b

/-- Maximum by R126. -/
def max' (a b : FV) : FV :=
  if a.isNan || b.isNan then .nan
  else if cmp a b > 0 then a else if cmp a b < 0 then b
  else if a.sign then b else a

/-- ⌊log2 |x|⌋ of a finite non-zero value. -/
def ilog2 : FV → Int
  | .fin _ m e => if m = 0 then 0 else (Nat.log2 m : Int) + e
  | _ => 0

end FV

/-- A rounding mode: to nearest even (R58), or stochastic with the element's 24-bit draw (R59). -/
inductive RMode where
  | rne
  | stoch (r : Nat)
deriving DecidableEq, Repr

/-- The magnitude q·2^k units rounded to a whole number of units: m / 2^k. For a negative value the
stochastic rule looks at x from below (R59: lo ≤ x < hi). -/
def roundMag (mode : RMode) (neg : Bool) (m k : Nat) : Nat :=
  let lo := m >>> k
  let rem := m % 2 ^ k
  if rem = 0 then lo
  else match mode with
    | .rne =>
      if 2 * rem > 2 ^ k then lo + 1
      else if 2 * rem = 2 ^ k then lo + lo % 2
      else lo
    | .stoch r =>
      if neg then
        let t := (2 ^ 24 * (2 ^ k - rem)) / 2 ^ k
        if r < t then lo else lo + 1
      else
        let t := (2 ^ 24 * rem) / 2 ^ k
        if r < t then lo + 1 else lo

/-- A finite value rounded to an integer (R46, R58, R59). -/
def roundInt (mode : RMode) (neg : Bool) (m : Nat) (e : Int) : Int :=
  let n := if e ≥ 0 then m <<< e.toNat else roundMag mode neg m (-e).toNat
  if neg then -(n : Int) else n

/-- Places a rounded magnitude n·2^q into a float format's fields; n has at most prec bits, or is
2^prec after a carry. None where it lies beyond the largest finite value (R41). -/
def packFloat (f : Fmt) (n : Nat) (q : Int) : Option Nat :=
  let p := f.prec
  if n = 0 then some 0
  else
    let (n, q) := if n = 2 ^ p then (2 ^ (p - 1), q + 1) else (n, q)
    let bits := if n < 2 ^ (p - 1) then n
      else (((q + (p - 1 : Nat) - f.emin + 1).toNat) <<< (p - 1)) + (n - 2 ^ (p - 1))
    if bits > f.maxBits then none else some bits

/-- An exact value rounded once into a float format: its bits and whether it counts as a saturation
(R40, R41). -/
def toFloat (f : Fmt) (mode : RMode) (v : FV) : Nat × Bool :=
  let sgn (n : Bool) : Nat := if n then 2 ^ (f.width - 1) else 0
  match v with
  | .nan => (f.nanBits, false)
  | .inf n => if f = .e4m3 then (sgn n + f.maxBits, true) else (sgn n + f.infBits, false)
  | .fin n m e =>
    if m = 0 then (sgn n, false)
    else
      let top : Int := (Nat.log2 m : Int) + e
      let q : Int := max top f.emin - (f.prec - 1 : Nat)
      let r := if e ≥ q then m <<< (e - q).toNat else roundMag mode n m (q - e).toNat
      match packFloat f r q with
      | some b => (sgn n + b, false)
      | none => if f = .e4m3 || f = .e5m2 then (sgn n + f.maxBits, true) else (sgn n + f.infBits, true)

/-- The exact value of a float pattern (R39, R40). -/
def ofFloat (f : Fmt) (b : Nat) : FV :=
  let p := f.prec
  let neg := b.testBit (f.width - 1)
  let ex := (b >>> (p - 1)) % 2 ^ (f.width - p)
  let man := b % 2 ^ (p - 1)
  let top := 2 ^ (f.width - p) - 1
  if f = .e4m3 then
    if ex = 15 && man = 7 then .nan
    else if ex = 0 then .fin neg man (-9) else .fin neg (man + 8) ((ex : Int) - 10)
  else if ex = top then (if man = 0 then .inf neg else .nan)
  else if ex = 0 then .fin neg man (f.emin - (p - 1 : Nat))
  else .fin neg (man + 2 ^ (p - 1)) ((ex : Int) - f.bias - (p - 1 : Nat))

/-- The integer an element of an integer format stands for outside the arrays; an escape code reads
as zero (R490). -/
def ofIntFmt (f : Fmt) (b : Nat) : Int :=
  match f with
  | .s4x => if b % 16 = 8 then 0 else sext b 4
  | .s8x => if b % 256 = 0x80 then 0 else sext b 8
  | f => sext b f.width

/-- The exact value of an element of any format. -/
def ofElem (f : Fmt) (b : Nat) : FV := if f.isFloat then ofFloat f b else FV.ofInt (ofIntFmt f b)

/-- Qmax of R45 for a quantization target. -/
def Fmt.qmax : Fmt → Nat
  | .s4 | .s4x => 7
  | .s8 | .s8x => 127
  | .s16 => 32767
  | _ => 2147483647

/-- Quantization of R46: x·2^p under exponent ea, clamped to ±qmax; the flag says it was counted. -/
def quantize (qmax : Nat) (mode : RMode) (ea p : Int) (x : FV) : Int × Bool :=
  match x with
  | .nan => (0, true)
  | .inf n => (if n then -(qmax : Int) else qmax, true)
  | .fin n m e =>
    let i := roundInt mode n m (e + p - ea)
    if i > qmax then (qmax, true) else if i < -(qmax : Int) then (-(qmax : Int), true) else (i, false)

/-- Is m·2^k ≤ qmax, exactly? -/
def fitsQ (m : Nat) (k : Int) (qmax : Nat) : Bool :=
  if k ≥ 0 then decide (m <<< k.toNat ≤ qmax) else decide (m ≤ qmax <<< (-k).toNat)

/-- The least exponent e with m·2^k·2^(−e) ≤ qmax (R45), m not zero. -/
def leastExp (m : Nat) (k : Int) (qmax : Nat) : Int :=
  let g : Int := (Nat.log2 m : Int) + k - (Nat.log2 qmax : Int)
  if fitsQ m (k - g) qmax then g else g + 1

/-- The ROWMAX exponent of R45 for the largest finite magnitude m of a row (pre-scale included). -/
def rowMaxExp (qmax : Nat) (m : FV) : Int :=
  match m with
  | .fin _ mm e => if mm = 0 then 0 else min (max (leastExp mm e qmax) (-128)) 127
  | _ => 0

/-- Conversion of one element between two formats (R208): bits and whether it was counted. The two
escaped formats take part only in a copy into themselves. -/
def convElem (src dst : Fmt) (mode : RMode) (b : Nat) : Nat × Bool :=
  if src = dst then (b % 2 ^ src.width, false)
  else if dst.isFloat then toFloat dst mode (ofElem src b)
  else if src.isFloat then
    let (i, c) := quantize dst.qmax mode 0 0 (ofFloat src b)
    (toBits i dst.width, c)
  else
    let i := ofIntFmt src b
    let lo : Int := -(2 ^ (dst.width - 1) : Nat)
    let hi : Int := (2 ^ (dst.width - 1) : Nat) - 1
    if i < lo then (toBits lo dst.width, true)
    else if i > hi then (toBits hi dst.width, true)
    else (toBits i dst.width, false)

/-! ## Correctly rounded FP32 (each result rounded once to nearest even) -/

/-- The exact value of FP32 bits. -/
def f32 (b : Nat) : FV := ofFloat .fp32 b
/-- FP32 bits of an exact value, to nearest even. -/
def rne32 (v : FV) : Nat := (toFloat .fp32 .rne v).1
/-- rne(a + b). -/
def f32Add (a b : Nat) : Nat := rne32 ((f32 a).add (f32 b))
/-- rne(a − b). -/
def f32Sub (a b : Nat) : Nat := rne32 ((f32 a).add (f32 b).neg)
/-- rne(a × b). -/
def f32Mul (a b : Nat) : Nat := rne32 ((f32 a).mul (f32 b))
/-- fma(a, b, c): one rounding. -/
def f32Fma (a b c : Nat) : Nat := rne32 (((f32 a).mul (f32 b)).add (f32 c))
/-- rne(a / b). -/
def f32Div (a b : Nat) : Nat := rne32 ((f32 a).div (f32 b))
/-- The canonical FP32 NaN. -/
def f32Nan : Nat := 0x7FC00000
/-- Is it an FP32 NaN? -/
def f32IsNan (a : Nat) : Bool := (f32 a).isNan
/-- 1.0. -/
def f32One : Nat := 0x3F800000
/-- −infinity. -/
def f32NegInf : Nat := 0xFF800000
/-- +infinity. -/
def f32PosInf : Nat := 0x7F800000

end Sys2Proof.Machine
end

