-- ==== Sys2Proof/Machine/Hbm.lean ====
section
/-! DEFINITION. A stack: address decode (R260), the memory-side cache (R264 to R269), poison and error
classes (R270 to R273), the maintenance arbiter (R281), retraining, migration and retirement (R274 to
R280), repairs (R284). -/

namespace Sys2Proof.Machine

/-- The stack and offset of an HBM address (R23). -/
def stackOf (a : Nat) : Nat × Nat := (a / 0x1000000000, a % 0x1000000000)

/-- Block index q of a stack offset (R260). -/
def blockQ (o : Nat) : Nat := (o >>> 8) >>> 5

/-- Pseudo-channel of a stack offset by the decode of R260. -/
def homeChannel (o : Nat) : Nat :=
  let b := o >>> 8
  let q := blockQ o
  let h := bits q 6 2 ^^^ bits q 11 7 ^^^ bits q 16 12 ^^^ bits q 21 17
  bits b 4 0 ^^^ h

/-- Where a block lies in its pseudo-channel (R260). -/
structure BlockPlace where
  columnBlock : Nat
  bankGroup : Nat
  bank : Nat
  sid : Nat
  row : Nat
deriving DecidableEq, Repr

/-- The decode of a block index, usable or spare (R260). -/
def blockPlace (q : Nat) : BlockPlace :=
  { columnBlock := bits q 1 0, bankGroup := bits q 3 2, bank := bits q 5 4, sid := bits q 7 6, row := bits q 22 8 }

/-- Usable blocks of a pseudo-channel (R276). -/
def usableBlocks : Nat := 8060928

/-- The pseudo-channel and block index that hold a stack offset: a block q of a retired pseudo-channel, or below the copy
pointer of a migrating one, lies in spare location 8,060,928 + q / 31 of the q mod 31-th other one (R276 to R278). -/
def servingPlace (t : Stack) (o : Nat) : Nat × Nat :=
  let pc := homeChannel o
  let q := blockQ o
  if t.outPc = some pc && (!t.migrating || decide (q < t.copyPtr)) then
    (nth 0 ((upto 32).filter (· != pc)) (q % 31), usableBlocks + q / 31)
  else (pc, q)

/-- The pseudo-channel that serves a stack offset. -/
def servingChannel (t : Stack) (o : Nat) : Nat := (servingPlace t o).1

/-! ## The memory-side cache -/

/-- The set of a line index (R264). -/
def lineSet (idx : Nat) : Nat := idx % 16384

/-- MSC_CFG.PART_WAYS as the block acts on it: a reserved encoding acts as the reset value 0 (R286,
R399). -/
def partWays (s : State) (k : Nat) : Nat :=
  let w := s.field (.msc k) 0x100 6 4
  if w ≤ 4 then w else 0

/-- The limit L on protected lines of a set (R266). -/
def keepLimit (s : State) (k : Nat) : Nat := min (s.field (.msc k) 0x100 3 0) (12 - partWays s k)

/-- The data of a line in HBM, without the cache. -/
def hbmLine (s : State) (k idx : Nat) : List Byte := s.mem.read (k * 0x1000000000 + idx * 128) 128

/-- The sectors of a line that are poisoned in HBM. -/
def hbmLinePoison (t : Stack) (idx : Nat) : List Nat :=
  (upto 4).filter fun i => t.poison.contains (idx * 4 + i)

/-- Writes a line to HBM: whole sectors, so their poison becomes the line's (R268, R271). -/
def writeBackLine (k : Nat) (l : Line) (s : State) : State :=
  let t := s.stack k
  let clean := t.poison.filter fun p => p / 4 != l.idx
  { s.setStack k { t with poison := clean ++ l.poison.map (l.idx * 4 + ·) } with
    mem := s.mem.write (k * 0x1000000000 + l.idx * 128) l.data }

/-- The lines of a stack with those of a set that satisfy p removed, and the removed ones. -/
def takeLine (t : Stack) (idx : Nat) : Option Line × List Line :=
  (t.lines.find? (fun l => l.idx == idx), t.lines.filter fun l => l.idx != idx)

/-- The least recently used line of a set that satisfies p: the last in recency order. -/
def lruOf (t : Stack) (set : Nat) (p : Line → Bool) : Option Line :=
  (t.lines.filter fun l => lineSet l.idx == set && p l).getLast?

/-- Evicts a line; a dirty one is written back (R264). -/
def evict (k : Nat) (l : Line) (s : State) : State :=
  let s := if l.dirty then writeBackLine k l s else s
  let t := s.stack k
  s.setStack k { t with lines := t.lines.filter fun m => m.idx != l.idx }

/-- The victim rule of R266 for a new line: the line that leaves, whether the new one may be allocated, and whether it is
protected. -/
def victim (s : State) (k idx : Nat) (keep : Bool) : Option Line × Bool × Bool :=
  let t := s.stack k
  let set := lineSet idx
  let inSet := t.lines.filter fun l => lineSet l.idx == set
  let lim := keepLimit s k
  let prot := (inSet.filter (·.prot)).length
  if keep && decide (1 ≤ lim) && decide (lim ≤ prot) then
    match lruOf t set (·.prot) with
    | some l => (some l, true, true)
    | none => (none, false, false)
  else
    let protect := keep && decide (1 ≤ lim)
    if inSet.length < 16 - partWays s k then (none, true, protect)
    else match lruOf t set (fun l => !l.prot) with
      | some l => (some l, true, protect)
      | none => (none, false, false)

/-- Makes room for a new line: the state, and whether the line may be allocated and be protected. -/
def makeRoom (k idx : Nat) (keep : Bool) (s : State) : State × Bool × Bool :=
  match victim s k idx keep with
  | (some l, ok, prot) => (evict k l s, ok, prot)
  | (none, ok, prot) => (s, ok, prot)

/-- Protection of a line by a KEEP hit (R266). -/
def protectHit (k : Nat) (l : Line) (s : State) : Line × State :=
  let lim := keepLimit s k
  if l.prot || lim = 0 then (l, s)
  else
    let t := s.stack k
    let prot := (t.lines.filter fun m => lineSet m.idx == lineSet l.idx && m.prot).length
    let s := if lim ≤ prot then
        match lruOf t (lineSet l.idx) (·.prot) with
        | some v => s.setStack k { t with lines := t.lines.map fun m =>
            if m.idx = v.idx then { m with prot := false } else m }
        | none => s
      else s
    ({ l with prot := true }, s)

/-- Puts a line at the front of the recency order. -/
def putLine (k : Nat) (l : Line) (s : State) : State :=
  let t := s.stack k
  s.setStack k { t with lines := l :: t.lines.filter fun m => m.idx != l.idx }

/-- One access served from the cache or from HBM (R286). -/
def countHit (k : Nat) (hit : Bool) (s : State) : State :=
  let t := s.stack k
  s.setStack k (if hit then { t with hits := (t.hits + 1) % 2 ^ 64 } else { t with misses := (t.misses + 1) % 2 ^ 64 })

/-- A read of one line: its bytes and poisoned sectors (R265). -/
def readLine (k idx : Nat) (cls : MemClass) (s : State) : (List Byte × List Nat) × State :=
  match (takeLine (s.stack k) idx).1 with
  | some l =>
    let s := countHit k true s
    let out := (l.data, l.poison)
    match cls with
    | .last =>
      let t := s.stack k
      (out, s.setStack k { t with lines := t.lines.filter fun m => m.idx != idx })
    | .keep =>
      let (l, s) := protectHit k l s
      (out, putLine k l s)
    | _ => (out, putLine k l s)
  | none =>
    let s := countHit k false s
    let data := hbmLine s k idx
    let poison := hbmLinePoison (s.stack k) idx
    let alloc := cls == .ordinary || cls == .keep
    if alloc then
      let (s, ok, prot) := makeRoom k idx (cls == .keep) s
      ((data, poison), if ok then putLine k ⟨idx, false, prot, poison, data⟩ s else s)
    else ((data, poison), s)

/-- The sectors of a line that a write of n bytes at o covers whole (R271). -/
def wholeSectors (o n : Nat) : List Nat := (upto 4).filter fun i => decide (o ≤ 32 * i) && decide (32 * i + 32 ≤ o + n)

/-- Bytes of a list replaced from position o on. -/
def splice (l : List Byte) (o : Nat) (bs : List Byte) : List Byte := l.take o ++ bs ++ l.drop (o + bs.length)

/-- A write within one line (R265, R271). -/
def writeLine (k idx o : Nat) (bs : List Byte) (cls : MemClass) (s : State) : State :=
  let clear := wholeSectors o bs.length
  let through (s : State) : State :=
    let t := s.stack k
    { s.setStack k { t with poison := t.poison.filter fun p =>
        !(p / 4 == idx && clear.contains (p % 4)) } with
      mem := s.mem.write (k * 0x1000000000 + idx * 128 + o) bs }
  match (takeLine (s.stack k) idx).1 with
  | some l =>
    let s := countHit k true s
    let (l, s) := if cls == .keep then protectHit k l s else (l, s)
    putLine k { l with dirty := true, data := splice l.data o bs
                       poison := l.poison.filter fun i => !clear.contains i } s
  | none =>
    let s := countHit k false s
    if cls == .stream then through s
    else
      let (s, ok, prot) := makeRoom k idx (cls == .keep) s
      if ok then
        let data := splice (hbmLine s k idx) o bs
        let poison := (hbmLinePoison (s.stack k) idx).filter fun i => !clear.contains i
        putLine k ⟨idx, true, prot, poison, data⟩ s
      else through s

/-- The pieces of [o, o + n) that lie in one line each: line, start in the line, length. -/
def linePieces : Nat → Nat → Nat → List (Nat × Nat × Nat)
  | 0, _, _ => []
  | fuel + 1, o, n =>
    if n = 0 then []
    else
      let m := min n (128 - o % 128)
      (o / 128, o % 128, m) :: linePieces fuel (o + m) (n - m)

/-- The pieces of an access. -/
def pieces (o n : Nat) : List (Nat × Nat × Nat) := linePieces (n / 128 + 2) o n

/-! ## Errors met by reads (R268, R270, R271, R273) -/

/-- STK_ERR_LAST for an error at a place (R285). -/
def errWord (kind : Nat) (at' : Nat × Nat) (o : Nat) : Nat :=
  fld kind 63 62 + fld at'.1 61 57 + fld (o / 32 % 4) 56 55 + fld (o / 128 % 2) 54 54 + fld at'.2 53 31

/-- One seep of the stack. -/
def seep (t : Stack) : Stack := { t with seep := (t.seep + 1) % 2 ^ 64 }

/-- Is the channel that serves a line held (R264)? -/
def lineHeld (t : Stack) (idx : Nat) : Bool := t.channelHeld (servingChannel t (idx * 128))

/-- What one error found at a stack does before the limits are looked at (R268, R270, R271, R273). A sector that is
poisoned already is no new error; a clean line with an uncorrectable error is fetched again. The issuer that HBM_UNCORR
names is free: a scrub or a copy finds errors as well (DESIGN CHOICE, log entry 32). -/
def noteFind (k : Nat) (f : HbmFind) (s : State) : State :=
  let t := s.stack k
  let place := servingPlace t f.off
  let pc := place.1
  let c := aget {} pc t.counts
  let sector := f.off / 32
  let ev := fun (s : State) =>
    let d := s.draw 4
    raiseEv (.stk k) evHbmUncorr (fld (k * 0x1000000000 + sector * 32) 39 0 + fld 0xFFF 51 40 + fld d.1 55 52) d.2
  let count := fun (c : PcCount) (link : Bool) (t : Stack) =>
    { t with counts := aset pc c t.counts, due := t.due ++ [(pc, link)] }
  match f.kind with
  | .correctable =>
    s.setStack k (count { c with corr := c.corr + 1 } false { seep t with errLast := errWord 0 place f.off })
  | .retried => s.setStack k { seep t with errLast := errWord 1 place f.off }
  | .uncorrectable =>
    if t.poison.contains sector then s
    else ev (s.setStack k (count { c with uncorr := c.uncorr + 1 } false
      { t with errLast := errWord 1 place f.off, poison := t.poison ++ [sector] }))
  | .interface =>
    s.setStack k (count { c with link := c.link + 1 } true { seep t with errLast := errWord 2 place f.off })
  | .cacheCorrectable => s.setStack k { seep t with errLast := errWord 3 place f.off }
  | .cacheUncorrectable =>
    match (takeLine t (f.off / 128)).1 with
    | none => s
    | some l =>
      if l.dirty then
        let l := { l with poison := if l.poison.contains (sector % 4) then l.poison else l.poison ++ [sector % 4] }
        let s := s.setStack k { t with errLast := errWord 3 place f.off }
        if lineHeld t l.idx then ev (putLine k l s) else ev (putLine k { l with dirty := false } (writeBackLine k l s))
      else
        let fresh := { l with data := hbmLine s k l.idx, poison := hbmLinePoison t l.idx }
        s.setStack k { seep t with
          errLast := errWord 3 place f.off, lines := t.lines.map fun m => if m.idx = l.idx then fresh else m }

/-- The error window of now: with a new one the counts start anew (R273). -/
def rollWindow (k : Nat) (s : State) : State :=
  let w := s.field (.stk k) 0x100 31 0
  let t := s.stack k
  let i := if w = 0 then 0 else s.now / w
  if t.window = i then s else s.setStack k { t with window := i, counts := [] }

/-- Errors that an access to stack k finds, before its data is used. -/
def noteFinds (k : Nat) (finds : List HbmFind) (s : State) : State :=
  each finds (noteFind k) (rollWindow k s)

/-- Errors appear in a stack; a read meets them later (R271). -/
def addUpsets (k : Nat) (finds : List HbmFind) (s : State) : State :=
  s.setStack k { s.stack k with upsets := (s.stack k).upsets ++ finds }

/-- The errors that an access to a line meets: in HBM if the line is not cached, in the cache if it is. -/
def meetErrors (k idx : Nat) (want : HbmFind → Bool) (s : State) : State :=
  let t := s.stack k
  if t.upsets.isEmpty then s
  else
    let hit := (takeLine t idx).1.isSome
    let met := fun (f : HbmFind) => f.off / 128 == idx && errCached f.kind == hit && want f
    noteFinds k (t.upsets.filter met) (s.setStack k { t with upsets := t.upsets.filter fun f => !met f })

/-- Does a miss of this class fetch the whole line (R265)? -/
def allocates (cls : MemClass) : Bool := cls == .ordinary || cls == .keep

/-- Does an error lie in the sectors of m bytes at i of its line? -/
def findIn (i m : Nat) (f : HbmFind) : Bool := overlaps (f.off % 128 / 32 * 32) 32 i m

/-- The errors that a read of m bytes at i of a line meets. -/
def readErrors (k idx i m : Nat) (cls : MemClass) (s : State) : State :=
  meetErrors k idx (fun f => allocates cls || findIn i m f) s

/-- The errors that a write meets: a fetched line is read; a sector written whole is not, and what was wrong in it is
gone but for the write's own interface errors (R271, R273). -/
def writeErrors (k idx o n : Nat) (cls : MemClass) (s : State) : State :=
  if (s.stack k).upsets.isEmpty then s
  else
    let whole := fun (f : HbmFind) => (wholeSectors o n).contains (f.off % 128 / 32)
    let fetched := allocates cls && (takeLine (s.stack k) idx).1.isNone
    let s := meetErrors k idx (fun f => fetched || (findIn o n f && (!whole f || f.kind == .interface))) s
    s.setStack k { s.stack k with upsets := (s.stack k).upsets.filter fun f => !(f.off / 128 == idx && whole f) }

/-! ## The running cache command (R269) -/

/-- Sets of the cache (R264). -/
def mscSets : Nat := 16384

/-- The first set from `lo` on, before `hi`, with a dirty line whose write-back waits for a held channel. -/
def mscStop (t : Stack) (lo hi : Nat) : Nat :=
  (t.lines.filter fun l => l.dirty && decide (lo ≤ lineSet l.idx) && lineHeld t l.idx).foldl
    (fun m l => min m (lineSet l.idx)) hi

/-- MSC_CMD passes the sets [lo, hi): their dirty lines are written back, and with CMD 2 all their lines leave. -/
def mscPass (k lo hi : Nat) (s : State) : State :=
  let here := fun (l : Line) => decide (lo ≤ lineSet l.idx) && decide (lineSet l.idx < hi)
  let s := each ((s.stack k).lines.filter fun l => l.dirty && here l) (writeBackLine k) s
  let t := s.stack k
  s.setStack k { t with
    mscSet := hi
    lines := if t.mscCmd = 2 then t.lines.filter fun l => !here l
      else t.lines.map fun l => if here l then { l with dirty := false } else l }

/-- A running MSC_CMD has come on to a set that no rule names by the time an access is served; it stops at a write-back
that waits (R264, R269). (DESIGN CHOICE, log entry 54) -/
def mscAdvance (k : Nat) (s : State) : State :=
  let t := s.stack k
  if t.mscCmd = 1 || t.mscCmd = 2 then
    let d := s.draw 64
    let hi := t.mscSet + d.1 % (mscSets - t.mscSet + 1)
    mscPass k t.mscSet (mscStop t t.mscSet hi) d.2
  else s

/-! ## Reads and writes -/

/-- A read of n bytes at an HBM address: the bytes, and the stack offset of the first poisoned sector
touched (R265, R272). -/
def hbmRead (a n : Nat) (cls : MemClass) (s : State) : (List Byte × Option Nat) × State :=
  let (k, o) := stackOf a
  (pieces o n).foldl (fun acc pc =>
    let ((bs, bad), s) := acc
    let (idx, i, m) := pc
    let ((line, poison), s) := readLine k idx cls (readErrors k idx i m cls s)
    let hurt := poison.find? fun p => overlaps (32 * p) 32 i m
    ((bs ++ (line.drop i).take m, match bad with
      | some b => some b
      | none => hurt.map fun p => idx * 128 + 32 * p), s)) (([], none), mscAdvance k s)

/-- A write at an HBM address (R265). -/
def hbmWrite (a : Nat) (bs : List Byte) (cls : MemClass) (s : State) : State :=
  let (k, o) := stackOf a
  ((pieces o bs.length).foldl (fun acc pc =>
    let (rest, s) := acc
    let (idx, i, m) := pc
    (rest.drop m, writeLine k idx i (rest.take m) cls (writeErrors k idx i m cls s))) (bs, mscAdvance k s)).2

/-- The address of the first poisoned sector that n bytes of HBM touch, in the cache or not. -/
def hbmBadSector (s : State) (a n : Nat) : Option Nat :=
  let (k, o) := stackOf a
  let t := s.stack k
  ((pieces o n).filterMap fun pc =>
    let (idx, i, m) := pc
    let poison := match (takeLine t idx).1 with
      | some l => l.poison
      | none => hbmLinePoison t idx
    (poison.find? fun p => overlaps (32 * p) 32 i m).map fun p => k * 0x1000000000 + idx * 128 + 32 * p).head?

/-- What the bytes at an HBM address are, whether in the cache or not; nothing changes. -/
def hbmPeek (s : State) (a n : Nat) : List Byte :=
  let (k, o) := stackOf a
  (pieces o n).flatMap fun pc =>
    let (idx, i, m) := pc
    match (takeLine (s.stack k) idx).1 with
    | some l => (l.data.drop i).take m
    | none => s.mem.read (k * 0x1000000000 + idx * 128 + i) m

/-- The held pseudo-channel that an access waits for: one that serves a line of it that is not in the cache, or to which
the line that makes room for it must be written back (R264). -/
def hbmHeld (s : State) (a n : Nat) (cls : MemClass) : Option (Nat × Nat) :=
  let (k, o) := stackOf a
  let t := s.stack k
  let waits := fun (idx : Nat) =>
    let c := servingChannel t (idx * 128)
    if t.channelHeld c then some (k, c) else none
  ((pieces o n).filterMap fun pc =>
    if (takeLine t pc.1).1.isSome then none
    else match waits pc.1 with
      | some g => some g
      | none => if allocates cls then
          match (victim s k pc.1 (cls == .keep)).1 with
          | some l => if l.dirty then waits l.idx else none
          | none => none
        else none).head?

/-- Writes back and invalidates every line (R283). -/
def flushAll (k : Nat) (s : State) : State :=
  let s := each ((s.stack k).lines.filter (·.dirty)) (writeBackLine k) s
  s.setStack k { s.stack k with lines := [] }

/-! ## The maintenance arbiter (R281) -/

/-- Admission priority: retrain, migration, repair, calibration, scrub. -/
def Maint.rank : Maint → Nat
  | .retrain => 0 | .migration => 1 | .repair => 2 | .calibration => 3 | .scrub => 4

/-- Does activity a preempt activity b? Repair preempts nothing and waits for the end of every other
activity (DEDUCED, log entry 13). -/
def Maint.preempts (a b : Maint) : Bool :=
  match a, b with
  | .retrain, .migration => true | .retrain, .calibration => true | .retrain, .scrub => true
  | .migration, .calibration => true | .migration, .scrub => true
  | .calibration, .scrub => true
  | _, _ => false

/-- Admits the waiting activity of the highest priority when none runs. -/
def admitNext (t : Stack) : Stack :=
  match t.maint with
  | some _ => t
  | none =>
    match best (fun (a b : Maint × Nat) => decide (a.1.rank ≤ b.1.rank)) t.waiting with
    | none => t
    | some a => { t with maint := some a, waiting := t.waiting.erase a, attempts := 0, token := false }

/-- An activity is requested: it joins the waiting ones, and preempts what it may. -/
def requestMaint (a : Maint) (pc : Nat) (t : Stack) : Stack :=
  if t.waiting.contains (a, pc) || t.maint = some (a, pc) then t
  else
    let t := { t with waiting := t.waiting ++ [(a, pc)] }
    match t.maint with
    | some b =>
      if a.preempts b.1 then admitNext { t with maint := none, waiting := t.waiting ++ [b] } else t
    | none => admitNext t

/-- The running activity ends. -/
def endMaint (t : Stack) : Stack := admitNext { t with maint := none, token := false, attempts := 0 }

/-! ## Retirement (R276 to R280) -/

/-- A stack is retired in service (R279): its lines are lost, requests held for it end as unmapped, its splice
tags fault, the device reports DEGRADED, and firmware logs it (R280). What waits on it is told by the caller. -/
def retireStack (k : Nat) (s : State) : State :=
  let t := s.stack k
  let s := s.setStack k { t with
    state := if t.state = 3 then 3 else 2, lines := [], migrating := false, maint := none, waiting := [], token := false
    busy := false, mscCmd := 0, mscSet := 0, upsets := [], due := [] }
  let u := s.splice k
  let s := s.setSplice k { u with
    part := []
    tags := u.tags.map fun t => if t.state = 5 ∨ t.state = 6 then t
      else { t with state := 6, cause := evHbmStackRetired } }
  let mine := fun (h : Held) => match h.gate with
    | .channel j _ => j == k
    | .stack j => j == k
    | _ => false
  let lost := s.held.filter mine
  let s := { s with held := s.held.filter fun h => !mine h }
  let s := each lost (fun h s =>
    answer h.req (.err evAddrUnmapped)
      (raiseEv (issuerPage h.req.who) evAddrUnmapped (detAddr h.req.addr h.req.dev h.req.who) s)) s
  let s := { s with sec := { s.sec with
    logStacks := if s.sec.logStacks.contains k then s.sec.logStacks else s.sec.logStacks ++ [k]
    logMigrating := s.sec.logMigrating.filter fun r => r.1 != k } }
  let s := raiseEv (.stk k) evHbmStackRetired (detUnit k 0 0) s
  if s.sec.state = 4 then
    raiseEv .sec evDeviceDegraded (detUnit 0 0 (maskOf (retiredStacks s)))
      { s with sec := { s.sec with state := 5 } }
  else s

/-- A pseudo-channel breaches (R276, R279). -/
def breachChannel (k pc : Nat) (s : State) : State :=
  let t := s.stack k
  if t.outPc = some pc || t.state = 2 then s
  else
    let s := raiseEv (.stk k) evHbmBreach (detUnit pc 0 0) s
    match t.outPc with
    | some _ => retireStack k s
    | none =>
      let s := s.setStack k (requestMaint .migration pc { t with
        state := if t.state = 3 then 3 else 1, outPc := some pc, migrating := true, copyPtr := 0 })
      { s with sec := { s.sec with logMigrating := s.sec.logMigrating ++ [(k, pc)] } }

/-- The limits of R273 after an access that found errors in a pseudo-channel, interface errors among them or not:
a retrain request or a breach. -/
def checkLimits (k : Nat) (link : Bool) (pc : Nat) (s : State) : State :=
  let t := s.stack k
  let c := aget {} pc t.counts
  if s.field (.stk k) 0x100 31 0 = 0 then s
  else
    let s := if link && decide (c.link > s.field (.stk k) 0x100 57 52) then s.setStack k (requestMaint .retrain pc t) else s
    if c.corr > s.field (.stk k) 0x100 47 32 || c.uncorr > s.field (.stk k) 0x100 51 48 then breachChannel k pc s
    else s

/-- The limits of the pseudo-channels in which errors have been found, once what found them has been served. -/
def judgeStack (k : Nat) (s : State) : State :=
  let l := (s.stack k).due
  each (l.map (·.1)).eraseDups (fun pc => checkLimits k (l.contains (pc, true)) pc)
    (s.setStack k { s.stack k with due := [] })

/-- Every stack in which errors have been found. -/
def judge (s : State) : State := each ((s.hbmStacks.filter fun r => !r.2.due.isEmpty).map (·.1)) judgeStack s

/-! ## BRINGUP (R283, R284) -/

/-- STK_MODE.BRINGUP = 1 applies: the ranges are unmapped, and the write-back of the cache begins. The arbiter goes on with
what it runs (R281). -/
def enterBringup (k : Nat) (s : State) : State :=
  let t := s.stack k
  s.setStack k { t with mscCmd := 4, mscSet := 0, busy := true
                        retrainOnReturn := t.retrainOnReturn ++ t.returning, returning := [] }

/-- The state that a stack has in service: active, with a pseudo-channel out, or retired (R285). -/
def servingState (s : State) (k : Nat) : Nat :=
  if s.sec.logStacks.contains k then 2 else if (s.stack k).outPc.isSome then 1 else 0

/-- The stack is in service again. -/
def returnStack (k : Nat) (s : State) : State := s.setStack k { s.stack k with state := servingState s k }

/-- STK_MODE.BRINGUP = 0 applies: the stack returns to service, once every repaired pseudo-channel has retrained (R284). -/
def leaveBringup (k : Nat) (s : State) : State :=
  let t := s.stack k
  let t := { t with mscCmd := 0, busy := false, state := 3, returning := t.retrainOnReturn, retrainOnReturn := [] }
  let s := s.setStack k (t.returning.foldl (fun t pc => requestMaint .retrain pc t) t)
  if t.returning.isEmpty then returnStack k s else s

/-- The retrain of a pseudo-channel of a returning stack has ended. -/
def retrainedOnReturn (k pc : Nat) (s : State) : State :=
  let t := s.stack k
  if !t.returning.contains pc then s
  else
    let l := t.returning.filter (· != pc)
    let s := s.setStack k { t with returning := l }
    if l.isEmpty then returnStack k s else s

/-- A repair is refused or fails (R284). -/
def repairBad (k pc op : Nat) (s : State) : State :=
  raiseEv (.stk k) evHbmRepairBad (detUnit pc op 0) (s.setStack k { s.stack k with repairState := 3 })

/-- A repair command (R284, R285): in its mode it joins the arbiter. -/
def repairCmd (k op v : Nat) (s : State) : State :=
  let t := s.stack k
  let pc := bits v 61 57
  if t.repairState = 1 then raiseEv (.stk k) evHbmRepairBad (detUnit pc op 0) s
  else if op ≠ 1 && (t.state ≠ 3 || !t.returning.isEmpty) then repairBad k pc op s
  else s.setStack k (requestMaint .repair pc { t with repairState := 1, repairOp := v })

/-- The repair that runs ends. -/
def repairEnd (k : Nat) (ok : Bool) (s : State) : State :=
  let t := s.stack k
  let v := t.repairOp
  let op := bits v 63 62
  let pc := bits v 61 57
  let s := s.setStack k (endMaint t)
  if !ok then repairBad k pc op s
  else
    let t := { s.stack k with repairState := 2 }
    let where_ := bits v 61 31
    if op = 1 then
      { s.setStack k { t with softUsed := (t.softUsed + 1) % 256, softRows := t.softRows ++ [where_] } with
        sec := { s.sec with logSoft := s.sec.logSoft ++ [(k, where_)] } }
    else if op = 2 then s.setStack k { t with hardRows := t.hardRows ++ [where_], retrainOnReturn := t.retrainOnReturn.filter (· != pc) ++ [pc] }
    else
      { s.setStack k { t with lanes := t.lanes ++ [where_], retrainOnReturn := t.retrainOnReturn.filter (· != pc) ++ [pc] } with
        sec := { s.sec with logLanes := s.sec.logLanes ++ [(k, where_)] } }

end Sys2Proof.Machine
end

