-- ==== Sys2Proof/Machine/Home.lean ====
section
/-! DEFINITION. The home of a hall address: address decode (R22 to R25), who reaches what (R26, R28),
presence (R230), fences and held crossings (R416, R419), memory, sync words with monitors and waits
(R169, R179 to R182), mirror writes (R312) and bollards (R184 to R186). -/

namespace Sys2Proof.Machine

/-! ## Address decode -/

/-- What a local address names (R23, R17, R408). -/
inductive Home where
  | hbm (a : Nat)
  | sram (c a : Nat)
  /-- A sync word, by its plain local address. -/
  | sync (key : Nat)
  | ctrl (c off : Nat)
  | port (c p off : Nat)
  | bollard (c n : Nat)
  /-- A chip register page range, populated or not. -/
  | chip (p : Option PageId) (off : Nat)
  | warden (a : Nat)
  /-- A hole of a range that is otherwise populated, or of none. -/
  | hole
deriving DecidableEq, Repr

/-- A usable offset of a stack in service (R23, R25, R283). -/
def hbmUsable (s : State) (a : Nat) : Bool :=
  decide (a % 0x1000000000 < 0xF60000000) && s.stackUp (a / 0x1000000000)

/-- Decode of a core register window (R17). -/
def windowHome (c off : Nat) : Home :=
  if off < 0x1000 then .ctrl c off
  else if off < 0x1C00 then .port c ((off - 0x1000) / 0x400) ((off - 0x1000) % 0x400)
  else if 0x2000 ≤ off ∧ off < 0x2200 then .bollard c ((off - 0x2000) / 8)
  else .hole

/-- The home of a local address (R23, R24). -/
def homeOf (s : State) (a : Nat) : Home :=
  if a < 0xC000000000 then (if hbmUsable s a then .hbm a else .hole)
  else if a < 0xC0A0000000 then .sram ((a - 0xC000000000) / 0x40000) a
  else if a < 0xC800000000 then .hole
  else if a < 0xC8A0000000 then (if a % 8 = 0 then .sync (a - 0x800000000) else .hole)
  else if a < 0xCC00000000 then .hole
  else if a < 0xCF00000000 then
    let o := a - 0xCC00000000
    if a % 8 = 0 ∧ s.stackUp (o / 0x40000000) then .sync (o / 0x40000000 * 0x1000000000 + o % 0x40000000)
    else .hole
  else if a < 0xD000000000 then .hole
  else if a < 0xD00A000000 then windowHome ((a - 0xD000000000) / 0x4000) (a % 0x4000)
  else if a < 0xE000000000 then .hole
  else if a < 0xE001000000 then .chip (pageAt a) (a % 0x1000)
  else if a < 0xF000000000 then .hole
  else .warden a

/-- The core whose polder holds a home (R416): SRAM, windows and bollards; none for the rest. -/
def homeCore : Home → Option Nat
  | .sram c _ => some c
  | .sync k => if 0xC000000000 ≤ k then some ((k - 0xC000000000) / 0x40000) else none
  | .ctrl c _ => some c | .port c _ _ => some c | .bollard c _ => some c
  | _ => none

/-- The core SRAM byte address of an offset. -/
def sramAddr (c off : Nat) : Nat := 0xC000000000 + c * 0x40000 + off

/-- The sync-alias local address of a word (R459). -/
def aliasOf (key : Nat) : Nat :=
  if 0xC000000000 ≤ key then key + 0x800000000
  else 0xCC00000000 + key / 0x1000000000 * 0x40000000 + key % 0x1000000000

/-- The key under which CORE_KNOT_SEEN of a core is monitored: its local address. -/
def seenKey (c : Nat) : Nat := pageBase (.core c) + 0x168

/-- The page of a sync word's home (R455). -/
def syncPage (key : Nat) : PageId :=
  if 0xC000000000 ≤ key then .core ((key - 0xC000000000) / 0x40000) else .stk (key / 0x1000000000)

/-! ## Who reaches what (R26, R28) -/

/-- The core an issuer belongs to. -/
def issuerCore : Issuer → Option Nat
  | .steward c => some c | .arrays c _ => some c | .side c _ => some c | .vector c _ => some c
  | .strand c _ _ => some c
  | _ => none

/-- Warden issuers pass every fence and presence check (R230, R419). -/
def isWarden : Issuer → Bool
  | .warden _ => true
  | _ => false

/-- Is the access a RoCE atomic? -/
def isAtomic : Acc → Bool
  | .fetchAdd _ => true | .cmpSwap .. => true
  | .sync (.add _) => true | .sync (.cas ..) => true
  | _ => false

/-- Is the access a write? -/
def isWrite : Acc → Bool
  | .load .. => false | .sync .read => false | .take => false
  | _ => true

/-- Are a steward's loads and stores those of U mode: it runs there, or MPRV lends it MPP (R28, R170)? -/
def Steward.dataUser (w : Steward) : Bool :=
  let m := aget 0 0x300 w.csr
  w.user || (bit m 17 && bits m 12 11 != 3)

/-- May this issuer reach this range (R28, and the head of R26's table)? A steward reaches the chip pages
in M mode only. -/
def reaches (s : State) (w : Issuer) (h : Home) (acc : Acc) : Bool :=
  match h with
  | .hbm _ => true | .sram _ _ => true | .hole => true
  | .sync _ => match w, acc with
    | .device .., .load .. => false
    | .device .., .store _ => false
    | _, _ => true
  | .ctrl _ _ => match w with
    | .steward _ => true | .warden _ => true | .tmp .. => true
    | .host _ => !isAtomic acc
    | .device .. => !isWrite acc
    | _ => false
  | .port c _ _ => match w with
    | .steward d => d == c
    | .warden _ => true
    | _ => false
  | .bollard _ _ => match w with
    | .steward _ => true | .warden _ => true
    | .device .. => match acc with
      | .put _ => true | .take => true
      | _ => false
    | .host _ => match acc with
      | .launch _ => true
      | _ => false
    | .splice .. => match acc with
      | .put _ => true
      | _ => false
    | _ => false
  | .chip _ _ => match w with
    | .steward c => !(s.core c).stw.dataUser
    | .warden _ => true | .tmp .. => true
    | .host _ => !isAtomic acc
    | _ => false
  | .warden _ => isWarden w

/-! ## Refusals -/

/-- The page on which a refused access is raised: the fabric port through which a remote device's access came (R37),
the FAB page where it meets an absent page (R230), else that of the issuer's block (R455). -/
def refusePage (w : Issuer) (code : Nat) : PageId :=
  match w with
  | .device _ p => if code = evPageAbsent then .fab else .fport p
  | _ => issuerPage w

/-- A refused access: its event (R37, R455), and the answer. -/
def refuse (code : Nat) (q : Req) (detailAddr : Nat) (s : State) : Option Resp × State :=
  (some (.err code), raiseEv (refusePage q.who code) code (detAddr detailAddr q.dev q.who) s)

/-- An access to device d that the fabric carries no operation for (R169): an unmapped access there. -/
def refuseRemote (d : Nat) (q : Req) (s : State) : Option Resp × State :=
  (some (.err evAddrUnmapped), raiseEv (issuerPage q.who) evAddrUnmapped (detAddr q.addr d q.who) s)

/-- The 2 MiB page of an HBM address (R228). -/
def presPage (a : Nat) : Nat := a / 0x200000

/-- Is a local HBM page marked absent? -/
def State.pageAbsent (s : State) (a : Nat) : Bool := s.pres.absent.contains (presPage a)

/-- The byte on an absent page for which an access of n bytes ends (R230): reads, and every access through the
alias, of issuers that are neither wardens nor strands reading or writing data. (DEDUCED, log entry 25) -/
def absentFor (s : State) (w : Issuer) (h : Home) (acc : Acc) (n : Nat) : Option Nat :=
  let strandData := match w with
    | .strand .. => true
    | _ => false
  match h with
  | .hbm a =>
    let read := match acc with
      | .load .. => true | .amo .. => true | .fetchAdd _ => true | .cmpSwap .. => true
      | _ => false
    if read && !strandData && !isWarden w then [a, a + n - 1].find? s.pageAbsent else none
  | .sync k => if k < 0xC000000000 && !isWarden w && s.pageAbsent k then some k else none
  | _ => none

/-! ## Wake marks (R423) -/

/-- A wake event for a polder that is not ACTIVE: the first one stands. (DEDUCED, log entry 55) -/
def markWake (p cause : Nat) (s : State) : State :=
  let d := s.polder p
  if d.state ≠ 0 ∧ d.wake.isNone then s.setPolder p { d with wake := some (s.now, cause) } else s

/-- The cause code with which an access wakes (R430). -/
def accCause : Acc → Nat
  | .put _ => 1 | .launch _ => 1 | .take => 1
  | _ => 4

/-! ## Updates of words: reservations, monitors, waits (R169, R181, R182) -/

/-- n bytes of memory as they stand, in the cache or not. -/
def State.peek (s : State) (a n : Nat) : List Byte :=
  if a < 0xC000000000 then hbmPeek s a n else s.mem.read a n

/-- The 8-byte word at a key. -/
def State.peekWord (s : State) (key : Nat) : Nat := leNat (s.peek key 8)

/-- The monitor of a core fires; its polder wakes (R181, R423). -/
def fireMonitor (c : Nat) (s : State) : State :=
  let w := (s.core c).stw
  match w.monitor with
  | none => s
  | some (a, _) => markWake (polderOf c) 2 (s.setStw c { w with monitor := some (a, true) })

/-- The word with this key has been updated: every monitor on it fires. -/
def fireKey (key : Nat) (s : State) : State :=
  let hit := s.mons.filter fun m => m.key == key
  each hit (fun m s => fireMonitor m.core s) { s with mons := s.mons.filter fun m => m.key != key }

/-- The waits on this word are evaluated again; one that holds is noted and wakes its polder. -/
def wakeWaits (key : Nat) (s : State) : State :=
  let v := sext (s.peekWord key) 64
  let holds := fun (w : WaitReg) => w.key == key && w.met.isNone && decide (v ≥ w.thr)
  let hit := s.waits.filter holds
  each hit (fun w s => markWake (polderOf w.core) 2 s)
    { s with waits := s.waits.map fun w => if holds w then { w with met := some s.now } else w }

/-- The words that n bytes at a touch. -/
def wordsOf (a n : Nat) : List Nat :=
  if n = 0 then [] else (upto ((a + n - 1) / 8 - a / 8 + 1)).map fun i => 8 * (a / 8 + i)

/-- Bytes at an address have been updated: reservations on the words are lost; monitors on them fire and
waits are evaluated, whatever kind of access it was (R169, R181; DEDUCED, log entry 14). -/
def touched (a n : Nat) (s : State) : State :=
  let hit := fun (k : Nat) => overlaps k 8 a n
  let s := { s with resv := s.resv.filter fun r => !hit r.2 }
  let keys := ((s.mons.map (·.key)) ++ (s.waits.map (·.key))).eraseDups.filter hit
  each keys (fun k s => wakeWaits k (fireKey k s)) s

/-- A monitor is armed at the home (R181); any earlier arming is dropped. -/
def armMonitor (c key hall : Nat) (s : State) : State :=
  let l := (s.mons.filter fun m => m.core != c) ++ [Mon.mk c key]
  let s : State := { s with mons := l }
  s.setStw c { (s.core c).stw with monitor := some (hall, false) }

/-- The monitor of a core is disarmed. -/
def disarm (c : Nat) (s : State) : State :=
  let s := { s with mons := s.mons.filter fun m => m.core != c }
  s.setStw c { (s.core c).stw with monitor := none }

/-- The hall address a steward's access in progress names. -/
def accessAddr (s : State) (c a : Nat) : Nat :=
  match (s.core c).stw.wait with
  | .access _ x _ => x
  | _ => 0xFFF * 0x10000000000 + a

/-! ## Mirrors (R311 to R313) -/

/-- Fields of mirror region m as applied: enabled, partner, first local page, first partner page, pages. -/
def mirrorCfg (s : State) (m : Nat) : Bool × Nat × Nat × Nat × Nat :=
  let b := s.reg .fab (0x300 + 16 * m)
  let v := s.reg .fab (0x308 + 16 * m)
  (bit b 0, bits b 51 40, bits b 39 21, bits v 39 21, bits v 18 0)

/-- The active region that holds a byte, if any, and the partner's address of it. -/
def mirrorOf (s : State) (a : Nat) : Option (Nat × Nat × Nat) :=
  ((upto 16).filterMap fun m =>
    let (en, partner, lo, plo, n) := mirrorCfg s m
    let pg := presPage a
    if en && !s.fab.cfgErr.contains m && !s.fab.suspended.contains m && decide (lo ≤ pg) && decide (pg < lo + n)
    then some (m, partner, plo * 0x200000 + (a - lo * 0x200000)) else none).head?

/-- The bytes of an update cut where the region changes: at 2 MiB pages. -/
def pagePieces (a : Nat) (bs : List Byte) : List (Nat × List Byte) :=
  let n := 0x200000 - a % 0x200000
  if bs.length ≤ n then [(a, bs)] else [(a, bs.take n), (a + n, bs.drop n)]

/-- Sends the copies of an update in HBM to the partners: ordered, on the mirror lane. -/
def sendMirrors (o : Owner) (a : Nat) (bs : List Byte) (s : State) : State :=
  each (pagePieces a bs) (fun pc s =>
    match mirrorOf s pc.1 with
    | none => s
    | some (m, partner, pa) =>
      request .fanout 0x0D partner pa pc.2.length 0 0 pc.2 true none (.mirrored m o) s) s

/-- Does any part of an update lie in an active region? -/
def isMirrored (s : State) (a n : Nat) : Bool :=
  (mirrorOf s a).isSome || (mirrorOf s (a + n - 1)).isSome

/-- A number for an answer that waits for mirrored copies. -/
def deferId (s : State) : Nat := s.fab.deferred.foldl (fun m d => max m (d.id + 1)) 0

/-- What an update's answer becomes: at once, or when the partner has answered as well (R312). A
MIRROR-WRITE is never mirrored again. -/
def mirrorAnswer (mirror : Bool) (q : Req) (r : Resp) (a : Nat) (bs : List Byte) (s : State) :
    Option Resp × State :=
  if !mirror || !isMirrored s a bs.length then (some r, s)
  else match q.cont with
    | .ack o => (some r, sendMirrors o a bs s)
    | .none => (some r, sendMirrors .nobody a bs s)
    | .signal => (some r, sendMirrors .nobody a bs s)
    | _ =>
      let id := deferId s
      (none, sendMirrors (.answer id) a bs
        { s with fab := { s.fab with deferred := s.fab.deferred ++ [⟨id, q, r⟩] } })

/-! ## Memory at its home -/

/-- The result of an AMO of the given width in bytes (R169). -/
def amoResult (op : AmoOp) (w old v : Nat) : Nat :=
  let n := 8 * w
  let so := sext old n
  let sv := sext v n
  let r := match op with
    | .swap => v | .add => old + v | .xor => old ^^^ v | .and => old &&& v | .or => old ||| v
    | .min => if so ≤ sv then old else v
    | .max => if so ≥ sv then old else v
    | .minu => min old v
    | .maxu => max old v
  r % 2 ^ n

/-- HBM_POISON for a read that touches a poisoned sector (R272). -/
def poisoned (k o : Nat) (q : Req) (s : State) : State :=
  raiseEv (.stk k) evHbmPoison (detAddr (k * 0x1000000000 + o) q.dev q.who) s

/-- Does a word of core SRAM in error lie in n bytes at a? -/
def bankMet (a n : Nat) (f : BankFind) : Bool := overlaps (alignDown f.addr 8) 8 a n

/-- The first uncorrectable word in n bytes of core SRAM (R36). -/
def bankBad (s : State) (a n : Nat) : Option Nat :=
  (s.bankFinds.find? fun f => f.uncorrectable && bankMet a n f).map fun f => alignDown f.addr 8

/-- The corrections of a bank read of n bytes are counted (R36, R470); each error is found once. -/
def bankSeeps (a n : Nat) (s : State) : State :=
  let met := fun (f : BankFind) => !f.uncorrectable && bankMet a n f
  { s with
    evt := { s.evt with sramSeep := (s.evt.sramSeep + (s.bankFinds.filter met).length) % 2 ^ 32 }
    bankFinds := s.bankFinds.filter fun f => !met f }

/-- SRAM_UNCORR of the word at w, on the page of the core whose SRAM it is, with its consumer (R36, R37, R455). -/
def bankLost (w dev : Nat) (who : Issuer) (s : State) : State :=
  raiseEv (.core ((w - 0xC000000000) / 0x40000)) evSramUncorr (detAddr w dev who)
    { s with bankFinds := s.bankFinds.filter fun f => !(f.uncorrectable && alignDown f.addr 8 == alignDown w 8) }

/-- A read of core SRAM: the bytes, unless a word of them could not be corrected (R36). -/
def bankRead (q : Req) (a n : Nat) (s : State) : Option (List Byte) × State :=
  let s := bankSeeps a n s
  match bankBad s a n with
  | some w => (none, bankLost w q.dev q.who s)
  | none => (some (s.mem.read a n), s)

/-- The event with which a read of memory that yields no data fails (R36, R272). -/
def lostData (a : Nat) : Nat := if a < 0xC000000000 then evHbmPoison else evSramUncorr

/-- Reads memory at its home: the data, or the poison that hides it. -/
def memRead (q : Req) (a n : Nat) (cls : MemClass) (s : State) : Option (List Byte) × State :=
  if a < 0xC000000000 then
    let ((bs, bad), s) := hbmRead a n cls s
    match bad with
    | none => (some bs, s)
    | some o => (none, poisoned (a / 0x1000000000) o q s)
  else bankRead q a n s

/-- Writes memory at its home, without mirroring. -/
def memWrite (a : Nat) (bs : List Byte) (cls : MemClass) (s : State) : State :=
  touched a bs.length
    (if a < 0xC000000000 then hbmWrite a bs cls s else { s with mem := s.mem.write a bs })

/-- A read-modify-write of n bytes: answers the old bytes. -/
def memModify (q : Req) (a n : Nat) (f : Nat → Option Nat) (s : State) : Option Resp × State :=
  match memRead q a n .ordinary s with
  | (none, s) => (some (.err (lostData a)), s)
  | (some old, s) =>
    match f (leNat old) with
    | none => (some (.ok old), s)
    | some v =>
      let bs := leBytes n v
      mirrorAnswer true q (.ok old) a bs (memWrite a bs .ordinary s)

/-- A load, store, AMO, LR or SC on plain memory (R169, R371). -/
def plainAccess (q : Req) (acc : Acc) (cls : MemClass) (mirror : Bool) (s : State) : Option Resp × State :=
  let a := q.addr
  match acc with
  | .load n lr =>
    match memRead q a n cls s with
    | (none, s) => (some (.err (lostData a)), s)
    | (some bs, s) =>
      let s := if lr then match q.who with
        | .steward c => { s with resv := s.resv.filter (fun r => r.1 != c) ++ [(c, alignDown a 8)] }
        | _ => s
        else s
      (some (.ok bs), s)
  | .store bs => mirrorAnswer mirror q (.ok []) a bs (memWrite a bs cls s)
  | .amo op w v => memModify q a w (fun old => some (amoResult op w old v)) s
  | .fetchAdd v => memModify q a 8 (fun old => some ((old + v.toNat) % 2 ^ 64)) s
  | .cmpSwap c v => memModify q a 8 (fun old => if old = c.toNat then some v.toNat else none) s
  | .sc w v =>
    match q.who with
    | .steward c =>
      let held := s.resv.contains (c, alignDown a 8)
      let s := { s with resv := s.resv.filter fun r => r.1 != c }
      if held then mirrorAnswer true q (.ok [0]) a (leBytes w v) (memWrite a (leBytes w v) .ordinary s)
      else (some (.ok [1]), s)
    | _ => (some (.err evAddrUnmapped), s)
  | _ => refuse evAddrUnmapped q a s

/-! ## Sync words (R179, R180) -/

/-- What a checked operation makes of a word: none where the word stays as it is and nothing failed. -/
def syncNew (op : SyncOp) (old : Int) : Option Int :=
  match op with
  | .read => none
  | .set v => some (sext v.toNat 64)
  | .add v => some (old + v)
  | .swap v => some (sext v.toNat 64)
  | .cas c v => if old = sext c.toNat 64 then some (sext v.toNat 64) else none

/-- The event of a value outside [0, 2^63 − 1], if it is outside. A SET, SWAP or CMP_SWAP value is taken as
a signed integer: one with bit 63 set falls below 0 (DEDUCED, log entry 15). -/
def syncFault (v : Int) : Option Nat :=
  if v < 0 then some evSyncUnderflow else if v > 2 ^ 63 - 1 then some evSyncOverflow else none

/-- A checked operation at the home of a word (R34, R179 to R182, R272). -/
def syncAccess (q : Req) (key : Nat) (op : SyncOp) (s : State) : Option Resp × State :=
  match memRead q key 8 .ordinary s with
  | (none, s) => (some (.err (lostData key)), s)
  | (some bs, s) =>
    match syncNew op (sext (leNat bs) 64) with
    | none => (some (.ok bs), s)
    | some v =>
      match syncFault v with
      | some code =>
        let dev := match q.who with
          | .device d _ => d
          | _ => s.deviceId
        (some (.err code), raiseEv (syncPage key) code (detSync (aliasOf key) dev q.who) s)
      | none =>
        let nb := leBytes 8 (toBits v 64)
        mirrorAnswer true q (.ok bs) key nb (memWrite key nb .ordinary s)

/-- Is the monitor to be armed: an LR.D of a steward (R181)? -/
def syncLoad (q : Req) (key : Nat) (lr : Bool) (s : State) : Option Resp × State :=
  let (r, s) := syncAccess q key .read s
  match lr, q.who, r with
  | true, .steward c, some (.ok _) => (r, armMonitor c key (accessAddr s c q.addr) s)
  | _, _, _ => (r, s)

/-- An access through a sync alias (R169, R179): what it asks is one of the checked operations. -/
def aliasAccess (q : Req) (key : Nat) (acc : Acc) (s : State) : Option Resp × State :=
  match acc with
  | .load 8 lr => syncLoad q key lr s
  | .store bs => if bs.length = 8 then syncAccess q key (.set (word (leNat bs))) s
    else refuse evAddrUnmapped q q.addr s
  | .amo .add 8 v => syncAccess q key (.add (sext v 64)) s
  | .amo .swap 8 v => syncAccess q key (.swap (word v)) s
  | .sync op => syncAccess q key op s
  | .fetchAdd v => syncAccess q key (.add (sext v.toNat 64)) s
  | .cmpSwap c v => syncAccess q key (.cas c v) s
  | _ => refuse evAddrUnmapped q q.addr s

/-! ## Bollards (R184 to R186) -/

/-- The device of a bollard operation's issuer (R457). -/
def sourceDevice (s : State) : Issuer → Nat
  | .device d _ => d
  | _ => s.deviceId

/-- Does an operation that arrives now at bollard n of core c queue behind the standing TAKE of its IDLE
steward (R186)? -/
def behindIdle (s : State) (c n : Nat) (put : Bool) : Bool := n == 0 && !put && (s.core c).stw.st == .idle

/-- Can an operation on bollard n complete now? -/
def bolReady (b : Bollards) (n : Nat) (put behind : Bool) : Bool :=
  (alookup n b.full).isSome != put && !behind

/-- Completes an operation on a bollard: the bollards after it and the answer. -/
def bolDo (b : Bollards) (n : Nat) (val : Option Word) : Bollards × Resp :=
  match val with
  | some v => ({ b with full := aset n v b.full }, .ok [])
  | none =>
    let v := aget 0 n b.full
    ({ b with full := b.full.filter fun f => f.1 != n }, .ok (leBytes 8 v.toNat))

/-- A bollard has changed state: the oldest waiting operation that can complete does so at once, and so
on. -/
def bolSettle (c n : Nat) : Nat → State → State
  | 0, s => s
  | fuel + 1, s =>
    let b := (s.core c).bol
    match b.waits.find? (fun w => w.n == n && bolReady b n w.val.isSome w.younger) with
    | none => s
    | some w =>
      let (b, r) := bolDo { b with waits := b.waits.erase w } n w.val
      let s := s.setCore c { s.core c with bol := b }
      bolSettle c n fuel (answer w.req r s)

/-- BOLLARD_TIMEOUT of an operation. -/
def bolTimeout (c n : Nat) (q : Req) (s : State) : State :=
  raiseEv (.core c) evBollardTimeout (detUnit n (issuerCode q.who) (sourceDevice s q.who)) s

/-- A PUT or TAKE arrives at the bollard unit of core c (R184, R185). An operation that completes wakes
nobody but the waiting ones. -/
def bolAccess (c n : Nat) (val : Option Word) (q : Req) (s : State) : Option Resp × State :=
  let b := (s.core c).bol
  let behind := behindIdle s c n val.isSome
  if bolReady b n val.isSome behind then
    let (b, r) := bolDo b n val
    (some r, bolSettle c n 33 (s.setCore c { s.core c with bol := b }))
  else if s.bollardTimeout c = 0 || decide (32 ≤ b.waits.length) then
    (some (.err evBollardTimeout), bolTimeout c n q s)
  else (none, s.setCore c { s.core c with bol := { b with waits := b.waits ++ [⟨n, val, s.now, q, behind⟩] } })

/-- A host launch PUT never waits (R184). -/
def bolLaunch (c n : Nat) (v : Word) (q : Req) (s : State) : Option Resp × State :=
  let b := (s.core c).bol
  if bolReady b n true false then bolAccess c n (some v) q s
  else
    let qpn := match q.who with
      | .host x => x
      | _ => 0
    (some (.err evBollardFull), raiseEv (.core c) evBollardFull (detUnit n 0 qpn) s)

/-- An access to a bollard word (R169, R184). -/
def bollardAccess (c n : Nat) (aligned : Bool) (q : Req) (acc : Acc) (s : State) : Option Resp × State :=
  if !aligned then refuse evAddrUnmapped q q.addr s
  else match acc with
  | .load 8 false => bolAccess c n none q s
  | .take => bolAccess c n none q s
  | .put v => bolAccess c n (some v) q s
  | .launch v => bolLaunch c n v q s
  | .store bs => if bs.length = 8 then bolAccess c n (some (word (leNat bs))) q s
    else refuse evAddrUnmapped q q.addr s
  | _ => refuse evAddrUnmapped q q.addr s

/-! ## Accesses at the device's own crossings -/

/-- Bytes an access covers. -/
def accLen : Acc → Nat
  | .load n _ => n | .store bs => bs.length | .amo _ w _ => w | .sc w _ => w
  | _ => 8

/-- What stands between an access and its home: the code that refuses it, or the gate that holds it. -/
inductive Barrier where
  | clear
  | refused (code addr : Nat)
  | held (g : Gate)
deriving DecidableEq, Repr

/-- A fence or a polder that is not ACTIVE stands before every access from outside it; an access that the crossing holds
already has passed the fence (R416, R419). -/
def crossing (s : State) (w : Issuer) (h : Home) (a : Nat) (inside' : Bool) : Barrier :=
  match homeCore h with
  | none => .clear
  | some c =>
    let p := polderOf c
    let inside := match issuerCore w with
      | some d => polderOf d == p
      | none => false
    if inside then .clear
    else if s.fenced p && !isWarden w && !inside' then .refused evAddrProtected a
    else if (s.polder p).state ≠ 0 then .held (.polder p)
    else .clear

/-- The source of an issuer's requests at a stack controller: a mesh edge port, or the splice unit (R261). -/
def sourceIndex (w : Issuer) : Nat :=
  match w with
  | .splice .. => 2 | .aux _ => 2 | .sender _ => 2
  | w => (Config.edgePort ((issuerCore w).getD (10240 + issuerCode w))).toNat

/-- Requests that wait for pseudo-channel pc of stack k. -/
def channelWaiters (s : State) (k pc : Nat) : Nat := (s.held.filter fun h => h.gate == .channel k pc).length

/-- Is the overflow pool of stack k full: 256 requests beyond the 64 of each pseudo-channel's queue (R262)? -/
def poolFull (s : State) (k : Nat) : Bool :=
  if s.held.length < 320 then false
  else decide (256 ≤ (upto 32).foldl (fun n pc => n + (channelWaiters s k pc - 64)) 0)

/-- What holds a request at its stack: a full pool its edge port, a held pseudo-channel where the access misses the cache
(R262, R264, R274). -/
def channelGate (s : State) (w : Issuer) (h : Home) (n : Nat) (cls : MemClass) : Barrier :=
  let go (a n : Nat) : Barrier :=
    if poolFull s (a / 0x1000000000) && sourceIndex w < 2 then .held (.stack (a / 0x1000000000))
    else match hbmHeld s a n cls with
      | some (k, pc) => .held (.channel k pc)
      | none => .clear
  match h with
  | .hbm a => go a n
  | .sync k => if k < 0xC000000000 then go k 8 else .clear
  | _ => .clear

/-- Everything that can stop an access before its home: protection, holes, fences, presence, holds; `inside'` says that
its crossing holds it already. (DEDUCED, log entry 22) -/
def barrier (s : State) (q : Req) (acc : Acc) (cls : MemClass := .ordinary) (inside' : Bool := false) : Barrier :=
  let h := homeOf s q.addr
  let n := accLen acc
  if !reaches s q.who h acc then .refused evAddrProtected q.addr
  else if h == .hole || (0 < n && homeOf s (q.addr + n - 1) == .hole && (match h with
      | .hbm _ => true
      | .sram _ _ => true
      | _ => false)) then .refused evAddrUnmapped q.addr
  else match crossing s q.who h q.addr inside' with
    | .clear => match absentFor s q.who h acc n with
      | some a => .refused evPageAbsent (alignDown a 0x200000)
      | none => channelGate s q.who h n cls
    | b => b

/-- The t_dry that a request from another device carries (R214). -/
def reqTdry (q : Req) : Option Int :=
  match q.cont with
  | .respond _ _ _ _ t => t
  | _ => none

/-- Holds an access with its t_dry at a gate until it opens; a polder's gate wakes it (R215). -/
def holdDry (g : Gate) (q : Req) (acc : Acc) (cls : MemClass) (tdry : Option Int) (s : State) : State :=
  let s := { s with held := s.held ++ [⟨g, q, acc, cls, tdry⟩] }
  match g with
  | .polder p => markWake p (accCause acc) s
  | .channel _ _ => s
  | .stack _ => s
  | .lost => s

/-- Holds an access at a gate. -/
def hold (g : Gate) (q : Req) (acc : Acc) (cls : MemClass) (s : State) : State := holdDry g q acc cls (reqTdry q) s

/-- Serves an access to memory, a sync alias or a bollard of this device: an answer now, or none where it
is held, waits, or awaits its mirror copy. Accesses to register pages are no engine's. -/
def serveMem (q : Req) (acc : Acc) (cls : MemClass) (mirror : Bool) (s : State) (tdry : Option Int := reqTdry q) :
    Option Resp × State :=
  match barrier s q acc cls with
  | .refused code a => refuse code q a s
  | .held g => (none, holdDry g q acc cls tdry s)
  | .clear => match homeOf s q.addr with
    | .hbm _ => plainAccess q acc cls mirror s
    | .sram _ _ => plainAccess q acc cls mirror s
    | .sync key => aliasAccess q key acc s
    | .bollard c n => bollardAccess c n (q.addr % 8 == 0) q acc s
    | _ => refuse evAddrUnmapped q q.addr s

/-- The device ID of a 52-bit hall address (R22). -/
def devOf (hall : Nat) : Nat := hall / 0x10000000000 % 4096

/-- The other device that a hall address names (R22): none for this device. -/
def remoteOf (s : State) (hall : Nat) : Option Nat :=
  let d := devOf hall
  if d = 0xFFF ∨ d = s.deviceId then none else some d

/-- The local address of a hall address. -/
def localOf (hall : Nat) : Nat := hall % 0x10000000000

/-- The code of a class in a packet's AUX (R204). (DESIGN CHOICE, log entry 74) -/
def classCode : MemClass → Nat
  | .ordinary => 0 | .stream => 1 | .keep => 2 | .last => 3

/-- A request to another device for an access (R304, R306); none where the fabric carries no such
operation (R169). A page, port or bollard of another device is told apart by its local address. -/
def remoteRequest (q : Req) (d : Nat) (acc : Acc) (forwarded : Bool) (tdry : Option Int) (s : State)
    (cls : MemClass := .ordinary) : Option State :=
  let a := q.addr
  let isAlias := decide (0xC800000000 ≤ a) && decide (a < 0xD000000000)
  let inWindow := decide (0xD000000000 ≤ a) && decide (a < 0xD00A000000)
  let isBol := inWindow && decide (0x2000 ≤ a % 0x4000) && decide (a % 0x4000 < 0x2200)
  let go (opc len operand : Nat) (data : List Byte) (ord : Bool) : Option State :=
    let aux := if (opc = 0x01 ∨ opc = 0x02) ∧ a < 0xC000000000 then classCode cls else 0
    some (request q.who opc d a len aux operand data ord tdry q.cont s)
  match acc with
  | .load n lr =>
    if isAlias then (if n = 8 then go 0x08 1 0 [] true else none)
    else if isBol then (if n = 8 && !lr then go 0x0A 1 0 [] true else none)
    else if lr then none
    else go 0x01 n 0 [] forwarded
  | .store bs =>
    if isAlias then (if bs.length = 8 then go 0x07 1 (leNat bs) [] true else none)
    else if isBol then (if bs.length = 8 then go 0x09 1 (leNat bs) [] true else none)
    else go 0x02 bs.length 0 bs forwarded
  | .amo .add 8 v => if isAlias then go 0x05 1 v [] true else none
  | .sync .read => go 0x08 1 0 [] true
  | .sync (.set v) => go 0x07 1 v.toNat [] true
  | .sync (.add v) => if v < 0 then go 0x06 1 (-v).toNat [] true else go 0x05 1 v.toNat [] true
  | .fetchAdd v => if isAlias then go 0x05 1 v.toNat [] true else none
  | .put v => go 0x09 1 v.toNat [] true
  | .launch v => go 0x09 1 v.toNat [] true
  | .take => go 0x0A 1 0 [] true
  | _ => none

/-- An access of an engine, a strand, the knot table, the fan-out unit, the splice unit or the send engine
to any device: an answer now, or none. -/
def engineAccess (who : Issuer) (hall : Nat) (acc : Acc) (cls : MemClass) (tdry : Option Int) (cont : Cont)
    (s : State) : Option Resp × State :=
  let q : Req := ⟨who, localOf hall, cont, devOf hall⟩
  match remoteOf s hall with
  | none => serveMem q acc cls true s tdry
  | some d =>
    match remoteRequest q d acc false tdry s cls with
    | some s => (none, s)
    | none => refuseRemote d q s

/-- A completion signal (R32, R89, R180): an ADD of at least 1; nobody waits for it, and the event of a
failure is all that its issuer hears. -/
def sendSignal (who : Issuer) (hall add : Nat) (s : State) : State :=
  (engineAccess who hall (.sync (.add add)) .ordinary none .signal s).2

/-- Is any write of an owner still unacknowledged (R32)? -/
def State.owes (s : State) (p : Owner → Bool) : Bool :=
  let mine := fun (c : Cont) => match c with
    | .ack o => p o
    | .mirrored _ o => p o
    | _ => false
  s.fab.outs.any (fun o => mine o.cont) || s.held.any (fun h => mine h.req.cont)
    || s.fab.gateway.any (fun g => mine g.1.cont)
    || s.spl.any (fun u => u.2.tags.any fun t => t.waiting.any fun w => mine w.req.cont)

/-! ## Waits of engines (R89, R182, R183) -/

/-- How a wait stands: holding, not yet, or ended by an error of its read. -/
inductive WaitState where
  | holds | notYet | failed (code : Nat)
deriving DecidableEq, Repr

/-- The wait condition on a word as it can be read now. -/
def readWait (who : Issuer) (hall : Nat) (thr : Int) (s : State) : WaitState :=
  let q : Req := ⟨who, localOf hall, .none, devOf hall⟩
  match barrier s q (.sync .read) with
  | .refused code _ => .failed code
  | .held _ => .notYet
  | .clear => match homeOf s q.addr with
    | .sync key =>
      match memRead q key 8 .ordinary s with
      | (some bs, _) => if sext (leNat bs) 64 ≥ thr then .holds else .notYet
      | (none, _) => .failed (lostData key)
    | _ => .failed evAddrUnmapped

/-- Registers a wait on a local sync word: the home evaluates it now and at every update. (DEDUCED, log entry 29) -/
def registerWait (c w : Nat) (who : Issuer) (hall : Nat) (thr : Int) (s : State) : State :=
  match homeOf s (localOf hall) with
  | .sync key =>
    let q : Req := ⟨who, localOf hall, .none, devOf hall⟩
    let met := if readWait who hall thr s = .holds then some s.now else none
    let s := match barrier s q (.sync .read), memRead q key 8 .ordinary s with
      | .clear, (some _, t) => t
      | _, _ => s
    let s := { s with waits := s.waits.filter (fun x => !(x.core == c && x.waiter == w))
                        ++ [⟨c, w, key, thr, met⟩] }
    match homeCore (.sync key) with
    | some d => if polderOf d ≠ polderOf c then markWake (polderOf d) 4 s else s
    | none => s
  | _ => s

/-- A wait ends. -/
def dropWait (c w : Nat) (s : State) : State :=
  { s with waits := s.waits.filter fun x => !(x.core == c && x.waiter == w) }

/-- The tick at which a registered wait was found to hold. -/
def waitMet (c w : Nat) (s : State) : Option Nat :=
  (s.waits.find? fun x => x.core == c && x.waiter == w).bind (·.met)

/-- The wait condition of a record, from the registration and from the word as it can be read now. -/
def waitState (c w : Nat) (who : Issuer) (hall : Nat) (thr : Int) (s : State) : WaitState :=
  if (waitMet c w s).isSome then .holds else readWait who hall thr s

/-- Has a wait since t0 outlasted CORE_WDOG_CFG.ENGINE_WAIT without holding (R183)? 0 disables it. -/
def waitOverdue (c w t0 : Nat) (s : State) : Bool :=
  s.engineWait c != 0 && s.past t0 (s.engineWait c) && match waitMet c w s with
    | some m => decide (t0 + s.engineWait c ≤ m)
    | none => true

/-- The wait's read ended with an error: its event (R26). -/
def waitEvent (who : Issuer) (hall code : Nat) (s : State) : State :=
  let a := localOf hall
  let plain := match homeOf s a with
    | .sync key => key
    | _ => a
  if code = evHbmPoison then
    poisoned (plain / 0x1000000000) (alignDown (plain % 0x1000000000) 32) ⟨who, a, .none, devOf hall⟩ s
  else if code = evSramUncorr then bankLost plain (devOf hall) who s
  else raiseEv (issuerPage who) code
    (detAddr (if code = evPageAbsent then alignDown plain 0x200000 else a) (devOf hall) who) s

/-! ## Addresses in records (R89, R204, R205) -/

/-- Does a hall address name an 8-byte-aligned sync alias? -/
def isAlias (hall : Nat) : Bool :=
  let a := localOf hall
  a % 8 == 0 && ((decide (0xC800000000 ≤ a) && decide (a < 0xC8A0000000))
    || (decide (0xCC00000000 ≤ a) && decide (a < 0xCF00000000)))

/-- Does a hall address name a sync alias of this device? -/
def isOwnAlias (s : State) (hall : Nat) : Bool := isAlias hall && (remoteOf s hall).isNone

/-- Does a hall address name a core SRAM window? -/
def inSram (hall : Nat) : Bool := decide (0xC000000000 ≤ localOf hall) && decide (localOf hall < 0xC0A0000000)

/-- Does a hall address name usable HBM? -/
def inHbm (hall : Nat) : Bool :=
  decide (localOf hall < 0xC000000000) && decide (localOf hall % 0x1000000000 < 0xF60000000)

/-! ## Images read by a block of the device -/

/-- Do n bytes at a local address lie in memory of this device: one stack in service, or core SRAM? -/
def memMapped (s : State) (a n : Nat) : Bool :=
  match homeOf s a, homeOf s (a + n - 1) with
  | .hbm x, .hbm y => x / 0x1000000000 == y / 0x1000000000
  | .sram _ _, .sram _ _ => true
  | _, _ => false

/-- What a unit that reads memory meets: data, an event that ends the read, or a gate, behind which it tries again. -/
inductive NowRead where
  | data (bs : List Byte)
  | failed (code : Nat)
  | held
deriving DecidableEq, Repr

/-- A read waits at a gate: a polder is woken. -/
def heldRead (g : Gate) (s : State) : NowRead × State :=
  (.held, match g with
    | .polder p => markWake p 4 s
    | _ => s)

/-- Reads n bytes of memory at its home for a unit of the device. -/
def dataRead (q : Req) (n : Nat) (s : State) : NowRead × State :=
  match memRead q q.addr n .ordinary s with
  | (some bs, s) => (.data bs, s)
  | (none, s) => (.failed (lostData q.addr), s)

/-- Reads n bytes at a local address for a unit of the device (R26, R36, R272). -/
def readNow (who : Issuer) (a n : Nat) (s : State) : NowRead × State :=
  let q : Req := ⟨who, a, .none, 0xFFF⟩
  match barrier s q (.load n false) with
  | .refused code addr => (.failed code, (refuse code q addr s).2)
  | .held g => heldRead g s
  | .clear => match homeOf s a with
    | .hbm _ => dataRead q n s
    | .sram _ _ => dataRead q n s
    | _ => (.failed evAddrUnmapped, (refuse evAddrUnmapped q a s).2)

/-- Reads n bytes of an image or descriptor for a block of the device. One that lies in no memory is bad and raises no
event of its own; a fence or an absent page does (R230, R419). (DEDUCED, log entry 56) -/
def imageRead (who : Issuer) (a n : Nat) (s : State) : NowRead × State :=
  let q : Req := ⟨who, a, .none, 0xFFF⟩
  if n = 0 || !memMapped s a n then (.failed evAddrUnmapped, s)
  else match barrier s q (.load n false) with
    | .refused code addr => (.failed code, (refuse code q addr s).2)
    | .held g => heldRead g s
    | .clear => dataRead q n s

/-- An image waits with those before it. -/
def waitImage (i : Image) (s : State) : State := { s with images := s.images ++ [i] }

end Sys2Proof.Machine
end

