-- ==== Sys2Proof/Machine/Pages.lean ====
section
/-! DEFINITION. What every register page does: pending copies and their boundaries (R394 to R399), HOLD,
APPLY and FORCE (R397), read shadows and write stages (R391 to R393), the configuration comparison
(R403 to R406) and acknowledgement (R402). -/

namespace Sys2Proof.Machine

/-! ## Boundaries (R395) -/

/-- The boundary at which a register's RWB fields apply. -/
def boundaryOf (p : PageId) (off : Nat) : Boundary :=
  match p with
  | .chip => if off = 0x100 then .ident else .page
  | .dist => if off = 0x100 then .descriptor else .page
  | .knot =>
    if 0x200 ≤ off ∧ off < 0x600 then .slot ((off - 0x200) / 16)
    else if 0x600 ≤ off ∧ off < 0x700 then .slot (64 + (off - 0x600) / 16)
    else if off = 0x110 then .slot 80
    else .page
  | .core _ => if 0x500 ≤ off ∧ off < 0x700 then .vector else .page
  | _ => .page

/-- The pending entry of a register, or one in which nothing pends. -/
def State.pendOf (s : State) (p : PageId) (off : Nat) : Pend := aget ⟨0, 0, false⟩ off (s.page p).pend

/-- The current value of a register's writable fields: four registers' RW fields stand with their blocks. -/
def State.regLive (s : State) (p : PageId) (off : Nat) : Nat :=
  match p, off with
  | _, 0x018 => b2n (s.page p).hold
  | _, 0x048 => (s.page p).evAck
  | .core c, 0x118 => b2n (s.core c).stw.msip
  | .stk k, 0x148 => (s.stack k).data1500
  | _, _ => s.reg p off

/-- What a high-word write without its stage commits beside itself: the pending copy, else the current
value (R392). -/
def State.regNewest (s : State) (p : PageId) (off : Nat) : Nat :=
  let d := s.pendOf p off
  s.regLive p off ^^^ ((s.regLive p off ^^^ d.val) &&& d.mask)

/-- A write of the RWB fields in `mask`: the pending copy (R394). A write after an APPLY is not released. -/
def pendWrite (p : PageId) (off mask v : Nat) (s : State) : State :=
  if mask = 0 then s
  else
    let g := s.page p
    let d := s.pendOf p off
    let val := (d.val &&& (ones64 ^^^ mask)) ||| (v &&& mask)
    s.setPage p { g with pend := aset off ⟨d.mask ||| mask, val, false⟩ g.pend }

/-- The value a pending copy gives its register. -/
def pendValue (s : State) (p : PageId) (off : Nat) (d : Pend) : Nat :=
  (s.reg p off &&& (ones64 ^^^ d.mask)) ||| (d.val &&& d.mask)

/-- One register's pending copy applies. -/
def applyReg (p : PageId) (off : Nat) (d : Pend) (s : State) : State :=
  let s := s.setReg p off (pendValue s p off d)
  let g := s.page p
  s.setPage p { g with pend := g.pend.filter fun r => r.1 != off
                       mismatch := if off = 0x020 then false else g.mismatch }

/-- The pending registers that apply at a boundary: all of it, or under HOLD those released (R397). -/
def due (s : State) (p : PageId) (b : Boundary) : List (Nat × Pend) :=
  let g := s.page p
  g.pend.filter fun r => boundaryOf p r.1 == b && (!g.hold || r.2.released)

/-- Applies pending registers in one cycle. -/
def applyAll (p : PageId) (l : List (Nat × Pend)) (s : State) : State :=
  each l (fun r s => applyReg p r.1 r.2 s) s

/-- A boundary arrives: the registers that apply, and the state after. -/
def applyAt (p : PageId) (b : Boundary) (s : State) : State := applyAll p (due s p b) s

/-- HOLD (R397). -/
def setHold (p : PageId) (v : Bool) (s : State) : State := s.setPage p { s.page p with hold := v }

/-- APPLY: what pends now is released to its boundaries (R397). -/
def releasePending (p : PageId) (s : State) : State :=
  let g := s.page p
  s.setPage p { g with pend := g.pend.map fun r => (r.1, { r.2 with released := true }) }

/-! ## Shadows and stages (R391 to R393) -/

/-- The shadow or stage of an issuer for a register. -/
def findHalf (l : List Half) (w : Issuer) (off : Nat) : Option Half :=
  l.find? fun h => h.who == w && h.off == off

/-- A shadow or stage is taken: each issuer has one per page; beyond eight the least recently used goes. -/
def takeHalf (l : List Half) (h : Half) : List Half :=
  (h :: l.filter fun x => x.who != h.who).take 8

/-- An issuer's entry for a register is freed. -/
def freeHalf (l : List Half) (w : Issuer) (off : Nat) : List Half :=
  l.filter fun x => !(x.who == w && x.off == off)

/-- A 4 B read of a register whose 64-bit value is v: low word (R391). -/
def readLow (p : PageId) (off v : Nat) (w : Issuer) (s : State) : Nat × State :=
  let g := s.page p
  (v % 2 ^ 32, s.setPage p { g with shadows := takeHalf g.shadows ⟨w, off, v / 2 ^ 32⟩ })

/-- A 4 B read of the high word: the shadow, which is freed, or the live bits (R391). -/
def readHigh (p : PageId) (off v : Nat) (w : Issuer) (s : State) : Nat × State :=
  let g := s.page p
  match findHalf g.shadows w off with
  | some h => (h.val, s.setPage p { g with shadows := freeHalf g.shadows w off })
  | none => (v / 2 ^ 32 % 2 ^ 32, s)

/-- A 4 B write of the low word: it is staged and changes nothing else (R392). -/
def stageLow (p : PageId) (off v : Nat) (w : Issuer) (s : State) : State :=
  let g := s.page p
  s.setPage p { g with stages := takeHalf g.stages ⟨w, off, v % 2 ^ 32⟩ }

/-- The 64-bit value that a 4 B write of the high word commits, and the state without the stage (R392). -/
def commitHigh (p : PageId) (off v : Nat) (w : Issuer) (s : State) : Nat × State :=
  let g := s.page p
  let wo := ((regDef p off).map RegDef.wo).getD 0
  let low := match findHalf g.stages w off with
    | some h => h.val
    | none => (s.regNewest p off &&& (ones64 ^^^ wo)) % 2 ^ 32
  (low + v % 2 ^ 32 * 2 ^ 32,
    s.setPage p { g with stages := g.stages.filter fun x => x.who != w })

/-- An 8 B write discards the issuer's stage for the register (R392). -/
def dropStage (p : PageId) (off : Nat) (w : Issuer) (s : State) : State :=
  let g := s.page p
  s.setPage p { g with stages := freeHalf g.stages w off }

/-! ## Comparison (R403 to R406) -/

/-- The configuration image of a page as applied. -/
def pageImage (s : State) (p : PageId) : List Byte := (pageImageOffs p).flatMap fun o => leBytes 8 (s.reg p o)

/-- The dike window of a comparison, numbered from 1. -/
def compareWindow (s : State) : Nat := s.now / 100000 + 1

/-- Is the page compared now: once per window, and a core's page not while its polder is drained nor in
the window of its wake (R405)? -/
def compareDue (s : State) (p : PageId) : Bool :=
  decide ((s.page p).compared < compareWindow s) && match p with
    | .core c => decide (c < 10240) && (s.polder (polderOf c)).state == 0
    | q => chipPages.contains q

/-- One comparison of a page (R405, R406). -/
def comparePage (p : PageId) (s : State) : State :=
  let g := { s.page p with compared := compareWindow s }
  if !g.pend.isEmpty then s.setPage p { g with skipped := true }
  else
    let crc := crc32c (pageImage s p)
    let ref := s.reg p 0x020 % 2 ^ 32
    let g := { g with skipped := false, crcNow := crc, crcCount := (g.crcCount + 1) % 2 ^ 32 }
    if crc = ref then s.setPage p { g with drift := false, mismatch := false }
    else
      let first := !g.mismatch
      let s := s.setPage p { g with drift := true, mismatch := true }
      if first then
        raiseEv p evConfigDrift (detCrc crc ref)
          { s with evt := { s.evt with driftLast := pageBase p } }
      else s

/-- EVT_ACK: only forward (R402). -/
def ackEvents (p : PageId) (v : Nat) (s : State) : State :=
  let g := s.page p
  s.setPage p { g with evAck := max g.evAck v }

/-- Does the page assert its interrupt (R402)? -/
def pageInterrupt (s : State) (p : PageId) : Bool := evStatus (s.page p) &&& s.reg p 0x038 != 0

/-- The chip pages whose interrupt goes to warden w, by their position in the chip page index (R465). -/
def wardenInterrupts (s : State) (w : Nat) : List Nat :=
  (upto chipPages.length).filter fun i =>
    bit (s.reg .evt (0x150 + 8 * w)) i && pageInterrupt s (nth .chip chipPages i)

end Sys2Proof.Machine
end

