-- ==== Sys2Proof/Machine/Splice.lean ====
section
/-! DEFINITION. The splice unit: the tag table (R326 to R330), zeroing (R331), the splice partition (R343),
splice packets (R339 to R341), verdicts and sheets (R333, R334, R345), the read-out (R348); the send engine
(R335 to R338); auxiliary commands (R349, R353, R360). -/

namespace Sys2Proof.Machine

/-! ## Writes by units of the device -/

/-- The hall address of a local address of this device. -/
def selfHall (a : Nat) : Nat := 0xFFF * 0x10000000000 + a

/-- A write of a unit of the device to its own memory: the answer, if there is one at once. -/
def writeNow (who : Issuer) (a : Nat) (bs : List Byte) (o : Owner) (s : State) : Option Resp × State :=
  engineAccess who (selfHall a) (.store bs) .ordinary none (.ack o) s

/-! ## Tags -/

/-- Word i of a tag's descriptor. -/
def Tag.w (t : Tag) (i : Nat) : Nat := nth 0 t.words i
/-- STEP. -/
def Tag.step (t : Tag) : Nat := bits (t.w 0) 63 32
/-- ACC_BASE. -/
def Tag.acc (t : Tag) : Nat := bits (t.w 1) 39 0
/-- Blocks. -/
def Tag.blocks (t : Tag) : Nat := bits (t.w 1) 53 40 + 1
/-- MAX_BASE. -/
def Tag.maxBase (t : Tag) : Nat := bits (t.w 2) 39 0
/-- OUT_SHIFT. -/
def Tag.outShift (t : Tag) : Int := sext (bits (t.w 2) 47 40) 8
/-- Contributors. -/
def Tag.contrib (t : Tag) : Nat := let n := bits (t.w 3) 31 0; if n = 0 then 2 ^ 32 else n
/-- The tag's issuer. -/
def Tag.who (t : Tag) (k : Nat) : Issuer := .splice k t.tag
/-- Packets for the tag wait (R330). -/
def Tag.holds (t : Tag) : Bool := t.state == 1 || t.state == 3

/-- The entry of a tag. -/
def findTag (s : State) (k tag : Nat) : Option Tag := (s.splice k).tags.find? fun t => t.tag == tag

/-- The state with a tag's entry replaced. -/
def setTag (k : Nat) (t : Tag) (s : State) : State :=
  let u := s.splice k
  s.setSplice k { u with tags := u.tags.map fun x => if x.tag = t.tag then t else x }

/-- The state without a tag's entry. -/
def dropTag (k tag : Nat) (s : State) : State :=
  let u := s.splice k
  s.setSplice k { u with tags := u.tags.filter fun x => x.tag != tag }

/-- A tag enters FAULTED (R343). -/
def faultTag (k tag cause : Nat) (s : State) : State :=
  match findTag s k tag with
  | none => s
  | some t => setTag k { t with state := 6, cause := cause, phase := 0 } s

/-- An event of the splice unit with the tag as index. -/
def splEvent (k code tag sub value : Nat) (s : State) : State := raiseEv (.spl k) code (detUnit tag sub value) s

/-- SPLICE_FORMAT. -/
def splFormat (k tag : Nat) (s : State) : State := splEvent k evSpliceFormat tag 0 0 s

/-- n bytes at a in usable HBM of stack k. -/
def inStack (k a n : Nat) : Bool :=
  a / 0x1000000000 == k && decide (a % 0x1000000000 + n ≤ 0xF60000000)

/-- A tag descriptor outside R328 and R329. -/
def tagDescBad (k : Nat) (t : Tag) : Bool :=
  bits (t.w 0) 15 12 != 0 || bits (t.w 0) 31 18 != 0 || bits (t.w 1) 63 54 != 0 || bits (t.w 2) 63 48 != 0
    || bits (t.w 3) 63 32 != 0 || [4, 5, 6, 7].any (fun i => bits (t.w i) 63 40 != 0)
    || bits (t.w 10) 63 52 != 0 || [11, 12, 13, 14, 15].any (fun i => t.w i != 0)
    || t.acc % 128 != 0 || t.maxBase % 64 != 0
    || !inStack k t.acc (8192 * t.blocks) || !inStack k t.maxBase (4 * t.blocks)
    || overlaps t.acc (8192 * t.blocks) t.maxBase (4 * t.blocks)

/-- The entry that has been DONE longest. -/
def oldestDone (u : Spl) : Option Tag :=
  best (fun a b => decide (a.doneAt ≤ b.doneAt)) (u.tags.filter fun t => t.state == 5)

/-- A write of SPL_TAG_OPEN (R328); on a retired stack the tag is FAULTED (R343). -/
def tagOpen (k desc : Nat) (s : State) : State :=
  if desc % 64 ≠ 0 then splFormat k 0xFFFF s
  else match imageRead (.splice k 0) desc 128 s with
    | (.held, s) => waitImage (.tag k desc) s
    | (.failed _, s) => splFormat k 0xFFFF s
    | (.data bs, s) =>
      let ws := (chunks 7 16 bs).map leNat
      let gone := (s.stack k).state == 2
      let t : Tag := { tag := bits (nth 0 ws 0) 11 0, words := ws, state := if gone then 6 else 1
                       cause := if gone then evHbmStackRetired else 0 }
      let u := s.splice k
      let busy := u.tags.any fun x => x.tag == t.tag && x.state != 5
      if tagDescBad k t || busy then splFormat k t.tag s
      else
        let same := u.tags.any fun x => x.tag == t.tag
        if same then s.setSplice k { u with tags := u.tags.map fun x => if x.tag = t.tag then t else x }
        else if u.tags.length < 256 then s.setSplice k { u with tags := u.tags ++ [t] }
        else match oldestDone u with
          | some x => s.setSplice k { u with tags := (u.tags.filter fun y => y.tag != x.tag) ++ [t] }
          | none => splFormat k t.tag s

/-! ## The splice partition (R331, R343) -/

/-- Lines the partition can hold (R267). -/
def partRoom (s : State) (k : Nat) : Nat := partWays s k * 16384

/-- Writes a line of accumulators to HBM. -/
def partWriteBack (k : Nat) (l : Line) (s : State) : State :=
  hbmWrite (k * 0x1000000000 + l.idx * 128) l.data .ordinary s

/-- Makes room for one line: the least recently used one leaves. -/
def partEvict (k : Nat) (s : State) : State :=
  let u := s.splice k
  if u.part.length < partRoom s k then s
  else match u.part.getLast? with
    | none => s
    | some l =>
      let s := s.setSplice k { u with part := u.part.dropLast }
      if l.dirty then partWriteBack k l s else s

/-- A line joins the partition as the most recently used; with no room at all it goes to HBM. (DEDUCED, log entry 50) -/
def partPut (k idx : Nat) (data : List Byte) (dirty : Bool) (s : State) : State :=
  let u := s.splice k
  let rest := u.part.filter fun l => l.idx != idx
  let l : Line := ⟨idx, dirty, false, [], data⟩
  if partRoom s k = 0 then (if dirty then partWriteBack k l s else s)
  else
    let s := partEvict k (s.setSplice k { u with part := rest })
    let u := s.splice k
    s.setSplice k { u with part := l :: u.part }

/-- The data of a line of accumulators; none where it is poisoned. -/
def partGet (k tag idx : Nat) (s : State) : Option (List Byte) × State :=
  match (s.splice k).part.find? fun l => l.idx == idx with
  | some l =>
    let u := s.splice k
    (some l.data, s.setSplice k { u with part := l :: u.part.filter fun m => m.idx != idx })
  | none =>
    match memRead ⟨.splice k tag, k * 0x1000000000 + idx * 128, .none, 0xFFF⟩ (k * 0x1000000000 + idx * 128) 128 .ordinary s with
    | (none, s) => (none, s)
    | (some bs, s) => (some bs, partPut k idx bs false s)

/-- Writes back the partition lines that satisfy p; they stay, clean. -/
def partClean (k : Nat) (p : Line → Bool) (s : State) : State :=
  let s := each ((s.splice k).part.filter fun l => l.dirty && p l) (partWriteBack k) s
  let u := s.splice k
  s.setSplice k { u with part := u.part.map fun l => if p l then { l with dirty := false } else l }

/-- The whole partition is written back and emptied, as before a change of PART_WAYS (R267, R343). -/
def partFlush (k : Nat) (s : State) : State :=
  let s := partClean k (fun _ => true) s
  s.setSplice k { s.splice k with part := [] }

/-- The lines of a block's accumulator. -/
def blockLines (t : Tag) (b : Nat) : List Nat := (upto 64).map fun i => (t.acc % 0x1000000000 + 8192 * b) / 128 + i

/-- Does an access of the unit to n bytes of accumulators or reports wait for a held pseudo-channel (R264, R274): one that
serves a line of them that is in neither the partition nor the cache, or a line of a full partition that must leave? -/
def unitHeld (s : State) (k a n : Nat) : Bool :=
  let t := s.stack k
  let u := s.splice k
  let waits := fun (idx : Nat) => lineHeld t idx && (takeLine t idx).1.isNone
  t.maint.isSome && (
    ((pieces (a % 0x1000000000) n).any fun pc => !(u.part.any fun l => l.idx == pc.1) && (hbmHeld s (a - a % 0x1000000000 + pc.1 * 128) 128 .ordinary).isSome)
    || (decide (partRoom s k ≤ u.part.length) && u.part.any fun l => l.dirty && waits l.idx))

/-- Does anything of a tag wait for a held pseudo-channel? -/
def tagHeld (s : State) (k : Nat) (t : Tag) : Bool :=
  unitHeld s k t.acc (8192 * t.blocks) || unitHeld s k t.maxBase (4 * t.blocks)

/-- Is any page of n bytes at a absent? -/
def anyAbsent (s : State) (a n : Nat) : Bool :=
  (upto ((a + n - 1) / 0x200000 - a / 0x200000 + 1)).any fun i => s.pageAbsent (alignDown a 0x200000 + i * 0x200000)

/-- PAGE_ABSENT of the splice unit: the tag faults (R230, R343). -/
def tagAbsent (k : Nat) (t : Tag) (a : Nat) (s : State) : State :=
  faultTag k t.tag evPageAbsent (refuse evPageAbsent ⟨t.who k, a, .none, 0xFFF⟩ (alignDown a 0x200000) s).2

/-- ADDR_UNMAPPED of the splice unit: its stack is out of service, and the tag faults (R26, R283). -/
def tagUnmapped (k : Nat) (t : Tag) (s : State) : State :=
  faultTag k t.tag evAddrUnmapped (refuse evAddrUnmapped ⟨t.who k, t.acc, .none, 0xFFF⟩ t.acc s).2

/-- The first absent page of the accumulators or the reports of a tag. -/
def tagPages (s : State) (t : Tag) : Option Nat :=
  if anyAbsent s t.acc (8192 * t.blocks) then some t.acc
  else if anyAbsent s t.maxBase (4 * t.blocks) then some t.maxBase else none

/-- Bytes expected in round 1 (R341). -/
def expect1 (t : Tag) : Nat := t.contrib * t.blocks * 4100

/-- Zeroes a block's accumulator: into the partition while it has room, else into HBM (R331). -/
def zeroBlock (k : Nat) (t : Tag) (b : Nat) (s : State) : State :=
  each (blockLines t b) (fun idx s =>
    let zero := List.replicate 128 0#8
    let u := s.splice k
    if u.part.any (fun l => l.idx == idx) || u.part.length < partRoom s k then partPut k idx zero true s
    else hbmWrite (k * 0x1000000000 + idx * 128) zero .ordinary s) s

/-- Zeroing ends: the tag enters ROUND1. -/
def zeroingDone (k tag : Nat) (s : State) : State :=
  match findTag s k tag with
  | none => s
  | some t =>
    if !s.stackUp k then tagUnmapped k t s
    else match tagPages s t with
    | some a => tagAbsent k t a s
    | none =>
      let s := each (upto t.blocks) (zeroBlock k t) s
      let s := hbmWrite t.maxBase ((upto t.blocks).flatMap fun _ => leBytes 4 0x80000000) .ordinary s
      setTag k { t with state := 2, received := 0, expect := expect1 t, t0 := s.now, late := false } s

/-! ## Packets (R339 to R341) -/

/-- The device a splice packet comes from. -/
def spliceSource (s : State) (q : Req) : Nat := sourceDevice s q.who

/-- Is the packet outside the tag's ranges, or of a kind its round does not take (R339)? -/
def outsideTag (t : Tag) (isMax : Bool) (a n : Nat) : Bool :=
  if isMax then a % 4 != 0 || decide (a < t.maxBase) || decide (a + n > t.maxBase + 4 * t.blocks) || t.state == 4
  else
    let off := a - t.acc
    a % 8 != 0 || n % 4 != 0 || decide (a < t.acc) || decide (off / 8192 ≥ t.blocks)
      || decide (off % 8192 + 2 * n > 8192) || (t.state == 4 && nth 0 t.marks (off / 8192) != 1)

/-- Adds S32 elements into S64 words that start at byte `o` of a line's bytes. -/
def addWords (line : List Byte) (o : Nat) (xs : List Nat) : List Byte :=
  splice line o ((upto xs.length).flatMap fun i =>
    leBytes 8 (toBits (sext (leNat ((line.drop (o + 8 * i)).take 8)) 64 + sext (nth 0 xs i) 32) 64))

/-- The pieces of an accumulation: line, byte in it, and the elements added there. -/
def accPieces : Nat → Nat → List Nat → List (Nat × Nat × List Nat)
  | 0, _, _ => []
  | fuel + 1, o, xs =>
    if xs.isEmpty then []
    else
      let n := (128 - o % 128) / 8
      (o / 128, o % 128, xs.take n) :: accPieces fuel (o + 8 * n) (xs.drop n)

/-- Adds the elements of a packet; false where a poisoned sector is met. -/
def accumulate (k : Nat) (t : Tag) (a : Nat) (xs : List Nat) (s : State) : Bool × State :=
  (accPieces (xs.length + 1) (a % 0x1000000000) xs).foldl (fun acc pc =>
    if !acc.1 then acc
    else match partGet k t.tag pc.1 acc.2 with
      | (none, s) => (false, s)
      | (some line, s) => (true, partPut k pc.1 (addWords line pc.2.1 pc.2.2) true s)) (true, s)

/-- Replaces reports by the larger values; false where a poisoned sector is met. -/
def report (k : Nat) (t : Tag) (a : Nat) (xs : List Nat) (s : State) : Bool × State :=
  match memRead ⟨t.who k, a, .none, 0xFFF⟩ a (4 * xs.length) .ordinary s with
  | (none, s) => (false, s)
  | (some bs, s) =>
    let old := (chunks 3 xs.length bs).map leNat
    let new := (upto xs.length).map fun i =>
      let x := nth 0 xs i
      let y := nth 0 old i
      if sext x 32 > sext y 32 then x else y
    (true, hbmWrite a (new.flatMap (leBytes 4)) .ordinary s)

/-- A packet that would carry RECEIVED past EXPECT, or comes in the cycle of the completing one (R341). -/
def overCount (k : Nat) (t : Tag) (w : SplWait) (s : State) : Resp × State :=
  (.err evSpliceCount,
    splEvent k evSpliceCount t.tag (spliceSource s w.req) 0 (faultTag k t.tag evSpliceCount s))

/-- A splice packet is performed and counted. -/
def spliceApply (k : Nat) (t : Tag) (w : SplWait) (s : State) : Resp × State :=
  let n := w.data.length
  let a := w.req.addr
  if t.received + n > t.expect then overCount k t w s
  else if anyAbsent s a (if w.max then n else 2 * n) then
    (.err evPageAbsent, faultTag k t.tag evPageAbsent (refuse evPageAbsent w.req (alignDown a 0x200000) s).2)
  else
    let xs := (chunks 3 (n / 4) w.data).map leNat
    let (ok, s) := if w.max then report k t a xs s else accumulate k t a xs s
    if !ok then (.err evHbmPoison, faultTag k t.tag evHbmPoison s)
    else
      let got := t.received + n
      let full := got == t.expect
      (.ok [], setTag k { t with
        received := got, state := if full then 3 else t.state, phase := 0, finAt := if full then some s.now else none } s)

/-- May a packet that comes now reach the unit in the controller cycle of the packet that completed the round: in the
same dike tick? -/
def sameTick (s : State) (t : Tag) : Bool := t.state == 3 && t.phase == 0 && t.waiting.isEmpty && t.finAt == some s.now

/-- A splice packet joins those that wait. -/
def waitSplice (k : Nat) (t : Tag) (w : SplWait) (s : State) : Option Resp × State :=
  (none, setTag k { t with waiting := t.waiting ++ [w] } s)

/-- A splice packet at the unit: its answer, or none where it waits; `tag` is its AUX. In the tick of the completing
packet a free value says whether it comes in the same cycle (DESIGN CHOICE, log entry 72). One to core SRAM or a sync alias
is ADDR_UNMAPPED, one to any other range ADDR_PROTECTED (R28; DESIGN CHOICE, log entry 72). -/
def serveSplice (tag : Nat) (w : SplWait) (s : State) : Option Resp × State :=
  let a := w.req.addr
  match homeOf s a with
  | .hbm _ =>
    let k := a / 0x1000000000
    let bad (s : State) : Option Resp × State :=
      (some (.err evSpliceTagBad), splEvent k evSpliceTagBad tag (spliceSource s w.req) 0 s)
    match findTag s k tag with
    | none => bad s
    | some t =>
      if t.state = 5 ∨ t.state = 6 then bad s
      else if sameTick s t then
        let d := s.draw 1
        if d.1 = 1 then
          let (r, s) := overCount k t w d.2
          (some r, s)
        else waitSplice k t w d.2
      else if t.holds || !t.waiting.isEmpty || unitHeld s k a (if w.max then w.data.length else 2 * w.data.length) then
        waitSplice k t w s
      else if outsideTag t w.max a w.data.length then bad s
      else
        let (r, s) := spliceApply k t w s
        (some r, s)
  | .sram _ _ => refuse evAddrUnmapped w.req a s
  | .sync _ => refuse evAddrUnmapped w.req a s
  | .hole => refuse evAddrUnmapped w.req a s
  | _ => refuse evAddrProtected w.req a s

/-- A packet that has waited is taken: its credits return and it is served. -/
def retakeSplice (tag : Nat) (w : SplWait) (s : State) : State :=
  match serveSplice tag w s with
  | (some r, s) => answer w.req r (match w.ret with
    | some (p, pkt) => takeReceived p pkt s
    | none => s)
  | (none, s) => s

/-- The packets that waited for a tag that no longer holds them are served, oldest first; one that still waits for a
pseudo-channel, and those behind it, wait on. -/
def drainTag (k : Nat) (t : Tag) (s : State) : State :=
  if t.holds || t.waiting.isEmpty then s
  else each t.waiting (retakeSplice t.tag) (setTag k { t with waiting := [] } s)

/-- A tag is freed; the packets that waited for it find none. -/
def freeTag (k tag : Nat) (s : State) : State :=
  match findTag s k tag with
  | none => s
  | some t => each t.waiting (retakeSplice tag) (dropTag k tag s)

/-- Every tag whose packets no longer wait; one whose FINISHING has ended under an abort is freed (R344). -/
def drainSplices (s : State) : State :=
  each s.spl (fun r s => each r.2.tags (fun t s => match findTag s r.1 t.tag with
    | some t => if t.abort && t.state != 3 then freeTag r.1 t.tag s else drainTag r.1 t s
    | none => s) s) s

/-! ## Verdict, sheets and read-out (R333, R334, R345, R348) -/

/-- A scale sheet (R333): E and MARK by block. -/
def sheetBytes (s : State) (t : Tag) (round step : Nat) (rows : List (Int × Nat)) : List Byte :=
  let head := fld t.tag 11 0 + fld s.deviceId 23 12 + fld round 25 24 + fld step 63 32
  let l := leBytes 8 head ++ leBytes 8 t.acc ++ leBytes 8 t.maxBase ++ leBytes 8 t.blocks
    ++ List.replicate 32 0#8 ++ rows.flatMap fun r => leBytes 1 (toBits r.1 8) ++ leBytes 1 r.2
  l ++ List.replicate ((64 - l.length % 64) % 64) 0#8

/-- The exponent predicted for the next step (R334). -/
def nextExp (m : Nat) (e : Int) : Int :=
  if m = 0x80000000 ∨ m = 0x7FFFFFFF then e else min (max (sext m 32 - 27) (-128)) 127

/-- The verdict on a block (R345). -/
def verdictOf (m : Nat) (e : Int) : Nat :=
  if m = 0x7FFFFFFF then 3 else if sext m 32 ≥ e + 31 then 1 else 0

/-- Writes of a tag in turn, each at once: it faults at the first that is refused. -/
def tagWrites (k : Nat) (t : Tag) : List (Nat × List Byte) → State → Bool × State
  | [], s => (true, s)
  | (a, bs) :: rest, s =>
    match writeNow (t.who k) a bs (.tag k t.tag) s with
    | (some (.err code), s) => (false, faultTag k t.tag code s)
    | (_, s) => tagWrites k t rest s

/-- A signal of a tag: true where it has been performed or is on its way; it faults where refused (R26). -/
def tagSignal (k : Nat) (t : Tag) (hall add : Nat) (s : State) : Option Resp × State :=
  engineAccess (t.who k) hall (.sync (.add add)) .ordinary none (.ack (.tag k t.tag)) s

/-- Round 2 begins (R345). -/
def beginRound2 (k : Nat) (t : Tag) (ms : List Nat) (s : State) : State :=
  let rows := (upto t.blocks).map fun b =>
    let e := nth 0 t.exps b
    let m := nth 0 t.marks b
    if m = 1 then (min (sext (nth 0 ms b) 32 - 27) 127, 1) else (e, if m = 3 then 3 else 2)
  let marked := (t.marks.filter (· == 1)).length
  let t := { t with exps := rows.map (·.1) }
  match tagWrites k t [(bits (t.w 6) 39 0, sheetBytes s t 2 t.step rows)] s with
  | (false, s) => s
  | (true, s) =>
    let s := each ((upto t.blocks).filter fun b => nth 0 t.marks b == 1) (zeroBlock k t) s
    let s := setTag k { t with
      state := 4, received := 0, expect := t.contrib * marked * 4096, t0 := s.now, late := false, phase := 0
      waiting := ((findTag s k t.tag).map (·.waiting)).getD [] } s
    let s := splEvent k evSpliceResplice t.tag 0 marked s
    let (hall, add) := (bits (t.w 9) 51 0, bits (t.w 9) 63 52)
    if add = 0 then s
    else match tagSignal k t hall add s with
      | (some (.err code), s) => faultTag k t.tag code s
      | (_, s) => s

/-- The FP32 values of a block's read-out, and how many leave the range (R348). -/
def readOutBlock (t : Tag) (b : Nat) (words : List Nat) : List Byte × Nat :=
  let e := nth 0 t.exps b + t.outShift
  let out := words.map fun w =>
    if nth 0 t.marks b = 3 then (f32Nan, false) else toFloat .fp32 .rne (FV.ofScaled (sext w 64) e)
  (out.flatMap fun x => leBytes 4 x.1, (out.filter (·.2)).length)

/-- The accumulator words of a block: none where one is poisoned. -/
def blockWords (k : Nat) (t : Tag) (b : Nat) (s : State) : Option (List Nat) × State :=
  let (bs, s) := (blockLines t b).foldl (fun (acc : Option (List Byte) × State) idx =>
    match acc with
    | (none, s) => (none, s)
    | (some l, s) => match partGet k t.tag idx s with
      | (none, s) => (none, s)
      | (some line, s) => (some (l ++ line), s)) (some [], s)
  (bs.map fun l => (chunks 7 1024 l).map leNat, s)

/-- The read-out of blocks b, b + 1, … in turn. -/
def readOutFrom (k : Nat) (t : Tag) : Nat → Nat → State → State
  | 0, _, s => setTag k { t with phase := 1, waiting := ((findTag s k t.tag).map (·.waiting)).getD [] } s
  | n + 1, b, s =>
    let out := bits (t.w 7) 39 0 + 4096 * b
    if anyAbsent s out 4096 then tagAbsent k t out s
    else match blockWords k t b s with
      | (none, s) => faultTag k t.tag evHbmPoison s
      | (some ws, s) =>
        let (bs, clipped) := readOutBlock t b ws
        let u := s.splice k
        let s := s.setSplice k { u with sat := (u.sat + clipped) % 2 ^ 64 }
        match tagWrites k t [(out, bs)] s with
        | (false, s) => s
        | (true, s) => readOutFrom k t n (b + 1) s

/-- The read-out begins. -/
def beginReadOut (k : Nat) (t : Tag) (s : State) : State :=
  if bit (t.w 0) 16 then readOutFrom k t t.blocks 0 s else setTag k { t with phase := 1 } s

/-- The round-1 verdict, with the reports and the sheet in hand (R345). -/
def verdict1 (k : Nat) (t : Tag) (ms : List Nat) (es : List Int) (s : State) : State :=
  let marks := (upto t.blocks).map fun b => verdictOf (nth 0 ms b) (nth 0 es b)
  let t := { t with marks := marks, exps := es }
  let next := (upto t.blocks).map fun b => (nextExp (nth 0 ms b) (nth 0 es b), 0)
  match tagWrites k t [(bits (t.w 5) 39 0, sheetBytes s t 1 ((t.step + 1) % 2 ^ 32) next)] (setTag k t s) with
  | (false, s) => s
  | (true, s) =>
    let s := match (upto t.blocks).find? fun b => nth 0 marks b == 3 with
      | some b => splEvent k evSpliceNonfinite t.tag 0 b s
      | none => s
    if marks.contains 1 then (if t.abort then freeTag k t.tag s else beginRound2 k t ms s) else beginReadOut k t s

/-- FINISHING: the lines of the tag are written back, then the verdict or the read-out (R345). (DEDUCED, log entry 52) -/
def verdict (k tag : Nat) (s : State) : State :=
  match findTag s k tag with
  | none => s
  | some t =>
    let mine (l : Line) : Bool :=
      decide (t.acc % 0x1000000000 / 128 ≤ l.idx) && decide (l.idx < (t.acc % 0x1000000000 + 8192 * t.blocks) / 128)
    if !s.stackUp k then tagUnmapped k t s
    else
    let s := partClean k mine s
    match tagPages s t with
    | some a => tagAbsent k t a s
    | none =>
      if !t.marks.isEmpty then beginReadOut k t s
      else match memRead ⟨t.who k, t.maxBase, .none, 0xFFF⟩ t.maxBase (4 * t.blocks) .ordinary s with
        | (none, s) => faultTag k tag evHbmPoison s
        | (some ms, s) =>
          match readNow (t.who k) (bits (t.w 4) 39 0 + 64) (2 * t.blocks) s with
          | (.held, s) => s
          | (.failed code, s) => faultTag k tag code s
          | (.data sheet, s) =>
            verdict1 k t ((chunks 3 t.blocks ms).map leNat)
              ((chunks 1 t.blocks sheet).map fun e => sext (nth 0#8 e 0).toNat 8) s

/-- The tag's signals have been performed: DONE. -/
def tagDone (k tag : Nat) (s : State) : State :=
  match findTag s k tag with
  | none => s
  | some t =>
    let u := s.splice k
    setTag k { t with state := 5, doneAt := u.doneSeq } (s.setSplice k { u with doneSeq := u.doneSeq + 1 })

/-- The PUT at completion, to a bollard word of this device (R26, R345). -/
def tagPut (k tag : Nat) (s : State) : State :=
  match findTag s k tag with
  | none => s
  | some t =>
    let hall := bits (t.w 10) 51 0
    if !bit (t.w 0) 17 then tagDone k tag s
    else if (remoteOf s hall).isSome then
      faultTag k tag evAddrProtected
        (refuse evAddrProtected ⟨t.who k, localOf hall, .none, devOf hall⟩ (localOf hall) s).2
    else
      let s := setTag k { t with phase := 3 } s
      match engineAccess (t.who k) hall (.put (word (t.step * 2 ^ 32 + t.tag))) .ordinary none
          (.ack (.tag k tag)) s with
      | (some (.ok _), s) => tagDone k tag s
      | (some (.err code), s) => faultTag k tag code s
      | (none, s) => s

/-- The read-out is acknowledged: the signal, the PUT, DONE (R345). An abort takes effect first (R344). -/
def readOutDone (k tag : Nat) (s : State) : State :=
  match findTag s k tag with
  | none => s
  | some t =>
    if t.abort then freeTag k tag s
    else
      let (hall, add) := (bits (t.w 8) 51 0, bits (t.w 8) 63 52)
      if add = 0 then tagPut k tag s
      else match tagSignal k t hall add (setTag k { t with phase := 2 } s) with
        | (some (.ok _), s) => tagPut k tag s
        | (some (.err code), s) => faultTag k tag code s
        | (none, s) => s

/-- A write or signal of a tag is answered. -/
def tagAnswered (k tag : Nat) (r : Resp) (s : State) : State :=
  match r, findTag s k tag with
  | .err code, some t => if t.state = 5 ∨ t.state = 6 then s else faultTag k tag code s
  | .ok _, some t =>
    if t.state = 3 ∧ t.phase = 2 then tagPut k tag s
    else if t.state = 3 ∧ t.phase = 3 then tagDone k tag s else s
  | _, none => s

/-- SPL_TAG_CMD with CMD 1 (R344). -/
def tagAbort (k tag : Nat) (s : State) : State :=
  match findTag s k tag with
  | none => s
  | some t =>
    if t.state = 3 then setTag k { t with abort := true } s else freeTag k tag s

/-- Has a round outlasted TAG_WDOG (R344)? -/
def tagOverdue (s : State) (k tag : Nat) : Bool :=
  let limit := s.field (.spl k) 0x150 31 0
  match findTag s k tag with
  | none => false
  | some t => (t.state == 2 || t.state == 4) && !t.late && limit != 0 && s.past t.t0 limit

/-- SPLICE_TIMEOUT. -/
def tagTimeout (k tag : Nat) (s : State) : State :=
  match findTag s k tag with
  | none => s
  | some t => splEvent k evSpliceTimeout tag (if t.state = 4 then 2 else 1) (t.received % 2 ^ 32)
      (setTag k { t with late := true } s)

/-! ## The send engine (R335 to R338) -/

/-- A write of SPL_SEND_CMD. -/
def sendCmd (k desc : Nat) (s : State) : State :=
  let u := s.splice k
  if desc % 64 ≠ 0 || u.sends.length + b2n u.send.isSome ≥ 16 then splFormat k 0xFFFF s
  else s.setSplice k { u with sends := u.sends ++ [desc] }

/-- The descriptor at the head ends: it counts in DONE, an error in LAST_ERR. -/
def sendEnds (k err : Nat) (s : State) : State :=
  let u := s.splice k
  s.setSplice k { u with
    send := none, sendDone := (u.sendDone + 1) % 2 ^ 32, sendErr := if err = 0 then u.sendErr else err }

/-- A send descriptor outside R335 or R336. -/
def sendBad (k : Nat) (w : List Nat) : Bool :=
  let r (i hi lo : Nat) : Nat := bits (nth 0 w i) hi lo
  let n := r 2 28 14
  r 0 63 40 != 0 || r 1 63 41 != 0 || r 2 63 29 != 0 || r 3 63 34 != 0 || r 5 63 32 != 0
    || (r 1 40 40 == 0 && r 4 63 0 != 0) || n == 0 || decide (n > 16384) || r 0 39 0 % 64 != 0
    || !(r 3 33 32 == 1 || r 3 33 32 == 2) || !inStack k (r 0 39 0) (4096 * n)

/-- The maximum report of a block's elements (R337). -/
def maxReport (xs : List Nat) : Nat :=
  let vs := xs.map f32
  if vs.any fun v => !v.isFin then 0x7FFFFFFF
  else
    let nz := vs.filter fun v => !v.isZero
    match nz with
    | [] => 0x80000000
    | v :: rest => toBits (rest.foldl (fun m x => max m x.ilog2) v.ilog2) 32

/-- The S32 contribution of a block, and how many elements saturate or are NaN (R337, R46). -/
def contribution (w : List Nat) (b : Nat) (e : Int) (xs : List Nat) : List Byte × Nat :=
  let r (i hi lo : Nat) : Nat := bits (nth 0 w i) hi lo
  let out := (upto xs.length).map fun i =>
    let mode := if r 1 40 40 = 1 then
        RMode.stoch (gen24 (r 4 63 0) (r 5 31 0) (r 6 63 0 + 1024 * b + i)) else .rne
    quantize 2147483647 mode e 0 (f32 (nth 0 xs i))
  (out.flatMap fun x => leBytes 4 (toBits x.1 32), (out.filter (·.2)).length)

/-- A splice packet leaves for the owner: over the fabric, or to this device's own unit. -/
def sendSplice (k owner tag addr : Nat) (isMax : Bool) (data : List Byte) (s : State) : State :=
  if owner = 0xFFF ∨ owner = s.deviceId then
    let q : Req := ⟨.sender k, addr, .ack (.sender k), owner⟩
    match serveSplice tag ⟨q, isMax, data, none⟩ s with
    | (some r, s) => answer q r s
    | (none, s) => s
  else request (.sender k) (if isMax then 0x04 else 0x03) owner addr data.length tag 0 data false none
    (.ack (.sender k)) s

/-- What the send engine needs of a sheet's header (R333). -/
structure Sheet where
  tag : Nat
  owner : Nat
  acc : Nat
  maxBase : Nat
deriving DecidableEq, Repr

/-- The header of a sheet. -/
def Sheet.of (head : List Byte) : Sheet :=
  let h0 := leNat (head.take 8)
  ⟨bits h0 11 0, bits h0 23 12, leNat ((head.drop 8).take 5), leNat ((head.drop 16).take 5)⟩

/-- The error that stops the descriptor while packets are in flight. -/
def sendError (k code : Nat) (s : State) : State :=
  let u := s.splice k
  s.setSplice k { u with send := u.send.map fun r => if r.err = 0 then { r with err := code } else r }

/-- The reports of a run of blocks leave (R337). -/
def sendMax (k : Nat) (sh : Sheet) (run : List (Nat × Nat)) (s : State) : State :=
  match run with
  | [] => s
  | (b, _) :: _ => sendSplice k sh.owner sh.tag (sh.maxBase + 4 * b) true (run.flatMap fun r => leBytes 4 r.2) s

/-- What the running descriptor has still to send. -/
def setTodo (k : Nat) (todo : List (Nat × Int)) (run : List (Nat × Nat)) (s : State) : State :=
  let u := s.splice k
  s.setSplice k { u with send := u.send.map fun r => { r with todo := todo, run := run } }

/-- Sends blocks in turn; `run` are the reports of the run of consecutive blocks so far. A source read that is held is
waited for. -/
def sendBlocks (k : Nat) (w : List Nat) (sh : Sheet) (first round : Nat) :
    List (Nat × Int) → List (Nat × Nat) → State → State
  | [], run, s => setTodo k [] [] (if round = 1 then sendMax k sh run s else s)
  | (b, e) :: rest, run, s =>
    let breaks := match run.getLast? with
      | some (p, _) => p + 1 != b || run.length == 1024
      | none => false
    let s := if breaks && round == 1 then sendMax k sh run s else s
    let run := if breaks then [] else run
    match readNow (.sender k) (bits (nth 0 w 0) 39 0 + 4096 * (b - first)) 4096 s with
    | (.failed code, s) => sendError k code (setTodo k [] [] s)
    | (.held, s) => setTodo k ((b, e) :: rest) run s
    | (.data bs, s) =>
      let xs := (chunks 3 1024 bs).map leNat
      let (data, n) := contribution w b e xs
      let u := s.splice k
      let s := s.setSplice k { u with sat := (u.sat + n) % 2 ^ 64 }
      let s := sendSplice k sh.owner sh.tag (sh.acc + 8192 * b) false data s
      sendBlocks k w sh first round rest (run ++ [(b, maxReport xs)]) s

/-- The blocks that the running descriptor has still to send (R337). -/
def sendOn (k : Nat) (s : State) : State :=
  match (s.splice k).send with
  | none => s
  | some x => if x.todo.isEmpty then s
    else sendBlocks k x.words (Sheet.of x.head) (bits (nth 0 x.words 2) 13 0) (bits (nth 0 x.words 3) 33 32) x.todo x.run s

/-- Does the sheet's header break the descriptor's expectations: STEP, ROUND, BLOCKS (R336)? -/
def sheetBad (w : List Nat) (head : List Byte) : Bool :=
  let r (i hi lo : Nat) : Nat := bits (nth 0 w i) hi lo
  let h0 := leNat (head.take 8)
  bits h0 63 32 != r 3 31 0 || bits h0 25 24 != r 3 33 32
    || decide (bits (leNat ((head.drop 24).take 8)) 14 0 < r 2 13 0 + r 2 28 14)

/-- The blocks of a sound descriptor are sent (R337). -/
def sendRun (k : Nat) (w : List Nat) (head marks : List Byte) (s : State) : State :=
  let r (i hi lo : Nat) : Nat := bits (nth 0 w i) hi lo
  let round := r 3 33 32
  let first := r 2 13 0
  let n := r 2 28 14
  let rows := (chunks 1 n marks).map fun e => (sext (nth 0#8 e 0).toNat 8, (nth 0#8 e 1).toNat)
  let go := (upto n).filterMap fun i =>
    let (e, m) := nth (0, 2) rows i
    if m = (if round = 1 then 0 else 1) then some (first + i, e) else none
  let u := s.splice k
  sendBlocks k w (Sheet.of head) first round go [] (s.setSplice k { u with send := some { words := w, head := head } })

/-- The next send descriptor runs. (DEDUCED, log entry 51) -/
def sendNext (k : Nat) (s : State) : State :=
  let u := s.splice k
  match u.sends with
  | [] => s
  | desc :: rest =>
    match readNow (.sender k) desc 64 s with
    | (.held, s) => s
    | (.failed code, s) => sendEnds k code (s.setSplice k { s.splice k with sends := rest })
    | (.data bs, s1) =>
      let w := (chunks 7 8 bs).map leNat
      let popped (s : State) : State := s.setSplice k { s.splice k with sends := rest }
      if sendBad k w then sendEnds k evSpliceFormat (splFormat k 0xFFFF (popped s1))
      else
        let sheet := bits (nth 0 w 1) 39 0
        let first := bits (nth 0 w 2) 13 0
        match readNow (.sender k) sheet 64 s1 with
        | (.held, s) => s
        | (.failed code, s) => sendEnds k code (popped s)
        | (.data head, s2) =>
          if sheetBad w head then
            let h0 := leNat (head.take 8)
            sendEnds k evSpliceSheetBad (splEvent k evSpliceSheetBad (bits h0 11 0) (bits h0 25 24) 0 (popped s2))
          else match readNow (.sender k) (sheet + 64 + 2 * first) (2 * bits (nth 0 w 2) 28 14) s2 with
            | (.held, s) => s
            | (.failed code, s) => sendEnds k code (popped s)
            | (.data marks, s) => sendRun k w head marks (popped s)

/-- A packet or the signal of the send engine is answered. -/
def senderAnswered (k : Nat) (r : Resp) (s : State) : State :=
  match (s.splice k).send with
  | none => s
  | some x =>
    let code := match r with
      | .err c => c
      | .ok _ => 0
    if x.signalled then sendEnds k code s
    else if code ≠ 0 then sendError k code s else s

/-- Has every packet of the descriptor answered? -/
def sendDue (s : State) (k : Nat) : Bool :=
  match (s.splice k).send with
  | some x => !x.signalled && x.todo.isEmpty && !s.owes (· == .sender k)
  | none => false

/-- The descriptor ends: its signal on success, else its error (R338). -/
def sendComplete (k : Nat) (s : State) : State :=
  match (s.splice k).send with
  | none => s
  | some x =>
    let (hall, add) := (bits (nth 0 x.words 7) 51 0, bits (nth 0 x.words 7) 63 52)
    if x.err ≠ 0 || add = 0 then sendEnds k x.err s
    else
      let u := s.splice k
      let s := s.setSplice k { u with send := some { x with signalled := true } }
      match engineAccess (.sender k) hall (.sync (.add add)) .ordinary none (.ack (.sender k)) s with
      | (some r, s) => senderAnswered k r s
      | (none, s) => s

/-! ## Auxiliary commands (R349, R353, R360) -/

/-- An auxiliary descriptor outside R360 or R349. -/
def auxBad (w : List Nat) : Bool :=
  let r (i hi lo : Nat) : Nat := bits (nth 0 w i) hi lo
  let op := r 0 3 0
  let cols := r 3 34 24
  r 0 31 4 != 0 || !(op == 1 || op == 2) || r 3 63 35 != 0 || nth 0 w 6 != 0 || nth 0 w 7 != 0
    || r 1 63 40 != 0 || r 1 39 0 % 64 != 0
    || (op == 1 && (!([16, 32, 64, 128, 256, 512, 1024].contains cols) || r 3 23 0 % 16 != 0
        || r 3 23 0 == 0))

/-- Element (i, j) of the sketch (R349). -/
def sketchElem (seed layer step cols i j : Nat) : Byte :=
  if bit (gen24 seed layer (step * 2 ^ 40 + i * cols + j)) 23 then 0xFF#8 else 0x01#8

/-- The tiles of a sketch: address and bytes. -/
def sketchTiles (w : List Nat) : List (Nat × List Byte) :=
  let r (i hi lo : Nat) : Nat := bits (nth 0 w i) hi lo
  let cols := r 3 34 24
  (upto (r 3 23 0 / 16)).flatMap fun t => (upto (cols / 16)).map fun o =>
    (r 1 39 0 + 256 * o + 256 * (cols / 16) * t,
      (upto 256).map fun p => sketchElem (r 4 63 0) (r 0 63 32) (r 2 63 40) cols (16 * t + p / 16) (16 * o + p % 16))

/-- Auxiliary writes in turn: true where none was refused. -/
def auxWrites (k : Nat) : List (Nat × List Byte) → State → Bool × State
  | [], s => (true, s)
  | (a, bs) :: rest, s =>
    match writeNow (.aux k) a bs (.aux k) s with
    | (some (.err _), s) => (false, s)
    | (_, s) => auxWrites k rest s

/-- The freeze plane of one 8 B word of the mask: 64 × 64 parameters, or the first `groups` of them. -/
def planeOf (groups : Nat) (mask : Nat) : List Byte :=
  (upto groups).flatMap fun g => List.replicate 64 (if bit mask g then 0x01#8 else 0x00#8)

/-- How far an expansion has come: to its end, to an access that was refused, or to a group whose read is held. -/
inductive Expanded where
  | finished | refused
  | held (g : Nat)
deriving DecidableEq, Repr

/-- Expands a mask word by word from group g on. -/
def expandFrom (k : Nat) (w : List Nat) : Nat → Nat → State → Expanded × State
  | 0, _, s => (.finished, s)
  | fuel + 1, g, s =>
    let r (i hi lo : Nat) : Nat := bits (nth 0 w i) hi lo
    let n := min 64 (r 3 23 0 - g)
    if n = 0 then (.finished, s)
    else match readNow (.aux k) (r 2 39 0 + g / 8) (cdiv n 8) s with
      | (.held, s) => (.held g, s)
      | (.failed _, s) => (.refused, s)
      | (.data bs, s) =>
        match auxWrites k [(r 1 39 0 + 64 * g, planeOf n (leNat bs))] s with
        | (false, s) => (.refused, s)
        | (true, s) => expandFrom k w fuel (g + 64) s

/-- An expansion goes on from group g; a read that is held is waited for. -/
def expandOn (k : Nat) (w : List Nat) (bad : Bool) (g : Nat) (s : State) : State :=
  let (e, s) := expandFrom k w (bits (nth 0 w 3) 23 0 / 64 + 1) g s
  let r : AuxRun := match e with
    | .finished => { words := w, bad := bad }
    | .refused => { words := w, bad := true }
    | .held g => { words := w, bad := bad, next := some g }
  s.setSplice k { s.splice k with auxRun := some r }

/-- The expansion of a unit whose read was held goes on. -/
def auxOn (k : Nat) (s : State) : State :=
  match (s.splice k).auxRun with
  | some x => match x.next with
    | some g => if x.bad then s.setSplice k { s.splice k with auxRun := some { x with next := none } }
      else expandOn k x.words x.bad g s
    | none => s
  | none => s

/-- A checked auxiliary command writes its output. -/
def auxRun (k : Nat) (w : List Nat) (s : State) : State :=
  let u := s.splice k
  let s := s.setSplice k { u with auxQueue := u.auxQueue.drop 1, auxRun := some { words := w } }
  if bits (nth 0 w 0) 3 0 = 1 then
    let (ok, s) := auxWrites k (sketchTiles w) s
    s.setSplice k { s.splice k with auxRun := some { words := w, bad := !ok } }
  else expandOn k w false 0 s

/-- The queued auxiliary commands start in turn: malformed ones are skipped, the first sound one runs. -/
def auxNext (k : Nat) : Nat → State → State
  | 0, s => s
  | fuel + 1, s =>
    let u := s.splice k
    if u.auxRun.isSome then s
    else match u.auxQueue with
      | [] => s
      | desc :: rest =>
        match readNow (.aux k) desc 64 s with
        | (.held, s) => s
        | (.failed _, s) => auxNext k fuel (s.setSplice k { s.splice k with auxQueue := rest })
        | (.data bs, s) =>
          let w := (chunks 7 8 bs).map leNat
          if auxBad w then auxNext k fuel (splFormat k 0xFFFF (s.setSplice k { s.splice k with auxQueue := rest }))
          else auxRun k w s

/-- A write of SPL_AUX_CMD: a fifth queued command is skipped. -/
def auxCmd (k desc : Nat) (s : State) : State :=
  let u := s.splice k
  if desc % 64 ≠ 0 || u.auxQueue.length + b2n u.auxRun.isSome ≥ 4 then splFormat k 0xFFFF s
  else auxNext k 5 (s.setSplice k { u with auxQueue := u.auxQueue ++ [desc] })

/-- A write of an auxiliary command is answered. -/
def auxAnswered (k : Nat) (r : Resp) (s : State) : State :=
  let u := s.splice k
  match r with
  | .ok _ => s
  | .err _ => s.setSplice k { u with auxRun := u.auxRun.map fun x => { x with bad := true } }

/-- The auxiliary command ends: its signal, and the next one starts. -/
def auxComplete (k : Nat) (s : State) : State :=
  let u := s.splice k
  match u.auxRun with
  | none => s
  | some x =>
    let (hall, add) := (bits (nth 0 x.words 5) 51 0, bits (nth 0 x.words 5) 63 52)
    let s := s.setSplice k { u with auxRun := none }
    let s := if x.bad || add = 0 then s else sendSignal (.aux k) hall add s
    auxNext k 5 s

/-! ## Registers (R359) -/

/-- Read-only registers of an SPL page. -/
def splValue (s : State) (k off : Nat) : Nat :=
  let u := s.splice k
  let sel := findTag s k (s.field (.spl k) 0x110 11 0)
  let open_ := (u.tags.filter fun t => t.state != 5).length
  if off = 0x118 then match sel with
    | some t => fld (t.marks.filter (· == 1)).length 46 32 + fld t.cause 31 16 + 8 + t.state
    | none => 0
  else if off = 0x120 then (sel.map (·.received)).getD 0
  else if off = 0x128 then (sel.map (·.expect)).getD 0
  else if off = 0x130 then
    fld (u.sends.length + b2n u.send.isSome) 36 32 + fld (u.tags.length - open_) 24 16 + fld open_ 8 0
  else if off = 0x140 then fld u.sendDone 63 32 + fld u.sendErr 31 16
  else if off = 0x158 then u.sat
  else 0

end Sys2Proof.Machine
end

