-- ==== Sys2Proof/Machine/Fabric.lean ====
section
/-! DEFINITION. The FAB page's units: routing loads (R302), the fan-out unit and fan-out trees (R309, R310,
R355), mirror regions (R311, R313), answers and timeouts at the requester (R318), and the order in which
packets are taken from a link (R305). -/

namespace Sys2Proof.Machine

/-! ## Routing loads (R302) -/

/-- The entries of a routing image that are not zero. -/
def routeEntries (bs : List Byte) : List (Nat × Nat) :=
  (((chunks 3 4096 bs).map leNat).zip (upto 4096)).filterMap fun r => if r.1 = 0 then none else some (r.2, r.1)

/-- A failed load: the old table stays. -/
def routeBad (s : State) : State :=
  raiseEv .fab evFabCfgBad (detUnit 0 0 0) { s with fab := { s.fab with routeState := 2 } }

/-- FAB_ROUTE_LOAD. -/
def routeLoad (src : Nat) (s : State) : State :=
  if src % 64 ≠ 0 then routeBad s
  else
    match imageRead .fanout src 16388 s with
    | (.held, s) => waitImage (.route src) s
    | (.failed _, s) => routeBad s
    | (.data bs, s) =>
      let table := bs.take 16384
      if crc32c table ≠ leNat (bs.drop 16384) || (table.drop 16380).any (· != 0#8) then routeBad s
      else { s with fab := { s.fab with route := routeEntries table, routeState := 0, routeCrc := crc32c table } }

/-! ## Mirror regions (R311, R313) -/

/-- Pages of a stack that are usable: 63 GiB less the metadata, in 2 MiB pages of 32,768. -/
def usablePages : Nat := 31488

/-- Is an enabled region inert: empty, outside usable HBM, or over another enabled one? (DEDUCED, log entry 24) -/
def mirrorBad (s : State) (m : Nat) : Bool :=
  let (en, _, lo, _, n) := mirrorCfg s m
  en && (n == 0 || decide (lo / 32768 ≥ 12) || decide (lo % 32768 + n > usablePages)
    || (upto 16).any fun j =>
      let (en', _, lo', _, n') := mirrorCfg s j
      j != m && en' && overlaps lo n lo' n')

/-- The FAB page has applied: inert regions are found. -/
def mirrorsConfigured (s : State) : State :=
  let bad := (upto 16).filter (mirrorBad s)
  let fresh := bad.filter fun m => !s.fab.cfgErr.contains m
  each fresh (fun m s => raiseEv .fab evFabCfgBad (detUnit (1 + m) 0 0) s)
    { s with fab := { s.fab with cfgErr := bad } }

/-- A mirror write of region m failed or was not answered (R313). -/
def suspendMirror (m : Nat) (s : State) : State :=
  if s.fab.suspended.contains m then s
  else
    let (_, partner, lo, _, _) := mirrorCfg s m
    raiseEv (.stk (lo / 32768)) evFabMirrorLost (detUnit m 0 partner)
      { s with fab := { s.fab with suspended := s.fab.suspended ++ [m] } }

/-- FAB_MIRROR_CMD with CMD 1. -/
def resumeMirror (m : Nat) (s : State) : State :=
  { s with fab := { s.fab with suspended := s.fab.suspended.filter (· != m) } }

/-! ## Fan-out trees (R309) -/

/-- FAB_TREE_CFG_t.EN. -/
def treeEn (s : State) (t : Nat) : Bool := bit (s.reg .fab (0x200 + 8 * t)) 0
/-- FAB_TREE_CFG_t.LOCAL. -/
def treeLocal (s : State) (t : Nat) : Bool := bit (s.reg .fab (0x200 + 8 * t)) 1
/-- The ports of FAB_TREE_CFG_t.TREE_PORTS, ascending. -/
def treePorts (s : State) (t : Nat) : List Nat := (upto 16).filter fun p => bit (s.reg .fab (0x200 + 8 * t)) (16 + p)

/-- FAB_FORMAT of the fan-out unit. -/
def fanFormat (s : State) : State := raiseEv .fab evFabFormat (detUnit 0xFFFF 0x0E s.deviceId) s

/-- Is a local address an 8-byte-aligned sync alias? -/
def aliasAddr (a : Nat) : Bool := isAlias (selfHall a)

/-- One fan-out write on a port of the tree; it carries this device's request number. -/
def fanSend (port tree addr hops : Nat) (data : List Byte) (o : Owner) (s : State) : State :=
  let dst := match (s.link port 0).neighbour with
    | some (d, _) => d
    | none => 0xFFF
  let pkt := mkPacket 0x0E true none dst s.deviceId addr data.length 0 0 tree false 0 data
  let pkt := { pkt with w0 := word (pkt.w0.toNat + fld hops 15 10) }
  requestOut ⟨0, dst, 0x0E, s.now, .fanout, addr, true, .ack o, some port⟩ ⟨pkt, none, 16, true⟩ s

/-- What a member with LOCAL = 1 does with the data: a SET of 8 B at a sync word, else a store (R346). -/
def fanAcc (addr : Nat) (data : List Byte) : Acc :=
  if data.length = 8 ∧ aliasAddr addr then .sync (.set (word (leNat data))) else .store data

/-- The first error of a forwarded write. -/
def relayNote (id : Nat) (r : Resp) (s : State) : State :=
  match r with
  | .ok _ => s
  | .err code => { s with fab := { s.fab with relays := s.fab.relays.map fun x =>
      if x.id = id ∧ x.status = 0 then { x with status := code } else x } }

/-- A fan-out write from another member arrives on a port of its tree (R309). -/
def relayStart (port : Nat) (p : Packet) (s : State) : State :=
  let t := pAux p % 16
  let id := s.fab.relays.foldl (fun m r => max m (r.id + 1)) 0
  let s := { s with fab := { s.fab with relays := s.fab.relays ++ [⟨id, port, pSrc p, pReqId p, 0⟩] } }
  let s := if treeLocal s t then
      let q : Req := ⟨.device (pSrc p) port, pAddr p, .ack (.relay id), 0xFFF⟩
      match serveMem q (fanAcc (pAddr p) p.data) .ordinary true s with
      | (some r, s) => relayNote id r s
      | (none, s) => s
    else s
  each ((treePorts s t).filter (· != port)) (fun x s =>
    fanSend x t (pAddr p) (pHops p) p.data (.relay id) s) s

/-- May a fan-out write that arrived on a port run? -/
def treeTakes (s : State) (port : Nat) (p : Packet) : Bool :=
  treeEn s (pAux p % 16) && (treePorts s (pAux p % 16)).contains port

/-- The half of a port whose receive buffer holds a packet. -/
def rxHalf (s : State) (port : Nat) (p : Packet) : Option Nat :=
  if (s.link port 0).rx.contains p then some 0
  else if (s.port port).split && (s.link port 1).rx.contains p then some 1 else none

/-- The tick at which a packet in a receive buffer arrived. -/
def arrivedAt (s : State) (port : Nat) (p : Packet) : Nat :=
  match rxHalf s port p with
  | some h => nth s.now (s.link port h).rxAt ((s.link port h).rx.findIdx (· == p))
  | none => s.now

/-- The t_dry of a packet, by the tick of its arrival; none when bulk (R214). -/
def packetDry (s : State) (port : Nat) (p : Packet) : Option Int :=
  if pBulk p then none else some (arrivedAt s port p + pTtd p)

/-- An error response leaves on the port on which its request arrived, with the request's t_dry. -/
def refuseOnPort (port : Nat) (p : Packet) (tdry : Option Int) (status : Nat) (s : State) : State :=
  sendOnPort port 0 ⟨answerPacket p status, tdry, 16, true⟩ s

/-- Can the fan-out with this number be answered? -/
def relayDue (s : State) (id : Nat) : Bool :=
  s.fab.relays.any (fun r => r.id == id) && !s.owes (· == .relay id)

/-- The aggregated answer leaves on the arrival port. -/
def relayAnswer (id : Nat) (s : State) : State :=
  match s.fab.relays.find? (fun r => r.id == id) with
  | none => s
  | some r =>
    let s := { s with fab := { s.fab with relays := s.fab.relays.filter fun x => x.id != id } }
    sendOnPort r.port 0 ⟨mkPacket 0x1F true none r.dst s.deviceId 0 1 r.reqId r.status 0 false 0 [0#8], none, 16, true⟩ s

/-! ## The fan-out unit (R310, R355) -/

/-- FAB_FANOUT_CMD: queued, or discarded. -/
def fanCmd (desc : Nat) (s : State) : State :=
  if desc % 32 ≠ 0 || s.fab.fanQueue.length + b2n s.fab.fanRun.isSome ≥ 16 then fanFormat s
  else { s with fab := { s.fab with fanQueue := s.fab.fanQueue ++ [desc] } }

/-- A descriptor ends: it counts in DONE, an error stands in LAST_ERR. -/
def fanEnds (err : Nat) (s : State) : State :=
  { s with fab := { s.fab with
    fanRun := none, fanDone := (s.fab.fanDone + 1) % 2 ^ 32, fanErr := if err = 0 then s.fab.fanErr else err } }

/-- Fields of a descriptor's words. -/
def fanField (w : List Nat) (i hi lo : Nat) : Nat := bits (nth 0 w i) hi lo

/-- A descriptor that breaks a field rule, or whose tree is disabled. -/
def fanBad (s : State) (w : List Nat) : Bool :=
  let src := fanField w 0 39 0
  let dst := fanField w 1 39 0
  let len := fanField w 2 26 0
  fanField w 0 63 44 != 0 || fanField w 1 63 40 != 0 || fanField w 2 63 27 != 0
    || (fanField w 3 63 52 != 0 && !isAlias (fanField w 3 51 0)) || !treeEn s (fanField w 0 43 40)
    || (if len = 8 then src % 8 != 0 || !aliasAddr dst
        else src % 64 != 0 || dst % 64 != 0 || len % 64 != 0 || len == 0 || decide (len > 0x4000000)
          || decide (0xC800000000 ≤ dst) && decide (dst < 0xD000000000))

/-- The data goes out packet by packet, each within an aligned 4 KiB block of the target, until all is sent
or an error stops it; a polder that holds the source is waited for. -/
def fanPieces : Nat → FanRun → State → State
  | 0, _, s => s
  | fuel + 1, r, s =>
    let s := { s with fab := { s.fab with fanRun := some r } }
    let len := fanField r.words 2 26 0
    let dst := fanField r.words 1 39 0 + r.sent
    if r.sent ≥ len then s
    else
      let n := min (4096 - dst % 4096) (len - r.sent)
      match readNow .fanout (fanField r.words 0 39 0 + r.sent) n s with
      | (.held, s) => s
      | (.failed code, s) => { s with fab := { s.fab with fanRun := some { r with status := code } } }
      | (.data bs, s) =>
        let tree := fanField r.words 0 43 40
        let (res, s) := if r.here then
            engineAccess .fanout (selfHall dst) (fanAcc dst bs) .ordinary none (.ack .fanout) s
          else (some (.ok []), s)
        match res with
        | some (.err code) => { s with fab := { s.fab with fanRun := some { r with status := code } } }
        | _ =>
          let s := each r.ports (fun p s => fanSend p tree dst 0 bs .fanout s) s
          fanPieces fuel { r with sent := r.sent + n } s

/-- Packets that a descriptor can need. -/
def fanFuel (w : List Nat) : Nat := fanField w 2 26 0 / 4096 + 3

/-- Is a distribution tree in SHARD-ONLY mode (R355)? -/
def shardOnly (s : State) (tree : Nat) : Bool :=
  bit (s.reg .dist 0x100) 0 && bit (s.reg .dist 0x100) (16 + tree)

/-- The next descriptor starts, or the running one goes on where it was held. -/
def fanNext (s : State) : State :=
  match s.fab.fanRun with
  | some r => fanPieces (fanFuel r.words) r s
  | none => match s.fab.fanQueue with
    | [] => s
    | desc :: rest =>
      match readNow .fanout desc 32 s with
      | (.held, s) => s
      | (.failed code, s) => fanEnds code { s with fab := { s.fab with fanQueue := rest } }
      | (.data bs, s) =>
        let s := applyAt .dist .descriptor { s with fab := { s.fab with fanQueue := rest } }
        let w := (chunks 7 4 bs).map leNat
        if fanBad s w then fanEnds evFabFormat (fanFormat s)
        else
          let tree := fanField w 0 43 40
          fanPieces (fanFuel w)
            { words := w, here := treeLocal s tree, ports := if shardOnly s tree then [] else treePorts s tree } s

/-- Is there a descriptor to start, or one that can go on? -/
def fanDue (s : State) : Bool :=
  match s.fab.fanRun with
  | some r => r.status == 0 && decide (r.sent < fanField r.words 2 26 0)
  | none => !s.fab.fanQueue.isEmpty

/-- A packet, the local write or the signal of the fan-out unit is answered. -/
def fanAnswered (r : Resp) (s : State) : State :=
  match s.fab.fanRun with
  | none => s
  | some x =>
    let code := match r with
      | .err c => c
      | .ok _ => 0
    if x.signalled then fanEnds code s
    else { s with fab := { s.fab with fanRun := some (if x.status = 0 then { x with status := code } else x) } }

/-- Has every packet of the running descriptor been answered? -/
def fanComplete (s : State) : Bool :=
  match s.fab.fanRun with
  | some r => !r.signalled && (r.status != 0 || decide (fanField r.words 2 26 0 ≤ r.sent)) && !s.owes (· == .fanout)
  | none => false

/-- The running descriptor ends: its signal on success, else its error. -/
def fanFinish (s : State) : State :=
  match s.fab.fanRun with
  | none => s
  | some r =>
    let (hall, add) := (fanField r.words 3 51 0, fanField r.words 3 63 52)
    if r.status ≠ 0 || add = 0 then fanEnds r.status s
    else
      let s := { s with fab := { s.fab with fanRun := some { r with signalled := true } } }
      match engineAccess .fanout hall (.sync (.add add)) .ordinary none (.ack .fanout) s with
      | (some x, s) => fanAnswered x s
      | (none, s) => s

/-! ## At the requester (R318) -/

/-- The group of the codes of a page (R454). -/
def pageGroup : PageId → Nat
  | .core _ => 1 | .knot => 2 | .stk _ => 3 | .msc _ => 3 | .pres => 3 | .fport _ => 4 | .fab => 5
  | .spl _ => 6 | .dist => 6 | .eth => 7 | .roce => 7 | .gov => 8 | .slu => 9 | .sec => 10
  | _ => 0

/-- Does a page raise this code? -/
def pageMayRaise (p : PageId) (code : Nat) : Bool := code / 256 == 0 || code / 256 == pageGroup p

/-- The plain address of an alias (R24), else the address itself. -/
def plainAddr (a : Nat) : Nat :=
  if 0xC800000000 ≤ a ∧ a < 0xCC00000000 then a - 0x800000000
  else if 0xCC00000000 ≤ a ∧ a < 0xD000000000 then
    (a - 0xCC00000000) / 0x40000000 * 0x1000000000 + (a - 0xCC00000000) % 0x40000000
  else a

/-- An engine, whose failed signals are reported with the record's tag (R180). -/
def isEngine : Issuer → Bool
  | .arrays .. | .side .. | .vector .. | .strand .. => true
  | _ => false

/-- The event that an issuer raises on its own page for an error of another device (R318). Of what R180 reports, engines
raise the event with the record's tag, and the host the one that R374 couples with its NAK. A STATUS that is no event's
number raises FAB_FORMAT whatever the request was. (DEDUCED, log entry 49) -/
def reportRemote (o : OutReq) (code : Nat) (unknown : Bool) (s : State) : State :=
  let silent := !unknown && match o.cont with
    | .mirrored _ _ => true
    | .ack (.relay _) => true
    | _ => false
  let page := issuerPage o.who
  let atHome := (code == evSyncUnderflow || code == evSyncOverflow) && page != .eth && !isEngine o.who
  let det :=
    if code = evSyncUnderflow ∨ code = evSyncOverflow then detSync o.addr s.deviceId o.who
    else if code = evFabFormat then detUnit 0xFFFF o.opc o.dst
    else if code = evBollardTimeout ∨ code = evBollardFull then
      detUnit ((o.addr % 0x4000 - 0x2000) / 8) (issuerCode o.who) o.dst
    else if code = evPageAbsent then detAddr (alignDown (plainAddr o.addr) 0x200000) o.dst o.who
    else detAddr o.addr o.dst o.who
  if silent || atHome || !pageMayRaise page code then s else raiseEv page code det s

/-- What a RESPONSE says: data, a value, or a status that is no event's number and counts as FAB_FORMAT. -/
def responseOf (o : OutReq) (p : Packet) : Resp :=
  if pStatus p ≠ 0 then .err (if isEvent (pStatus p) then pStatus p else evFabFormat)
  else if o.opc = 0x01 then .ok p.data
  else if o.opc = 0x05 ∨ o.opc = 0x06 ∨ o.opc = 0x08 ∨ o.opc = 0x0A then .ok (leBytes 8 p.w3.toNat)
  else .ok []

/-- A RESPONSE for this device: a late one is discarded. -/
def responseHere (p : Packet) (s : State) : State :=
  match s.fab.outs.find? (fun o => o.id == pReqId p) with
  | none => s
  | some o =>
    let r := responseOf o p
    endRequest o.id r (match r with
      | .err code => reportRemote o code (!isEvent (pStatus p)) s
      | .ok _ => s)

/-- Has a request outlasted REQ_TIMEOUT since its departure? -/
def requestOverdue (s : State) (id : Nat) : Bool :=
  s.reqTimeout != 0 && s.fab.outs.any (fun o => o.id == id && s.past o.t0 s.reqTimeout)
    && !s.fab.repin.any (fun q => pReqId q.pkt == id)

/-- FAB_TIMEOUT. -/
def requestTimeout (id : Nat) (s : State) : State :=
  match s.fab.outs.find? (fun o => o.id == id) with
  | none => s
  | some o => endRequest o.id (.err evFabTimeout) (raiseEv .fab evFabTimeout (detUnit o.dst o.opc o.id) s)

/-! ## Packets as they are taken from a link (R305) -/

/-- Ordered requests of a source on a lane that are not yet acknowledged at their home; an operation that
waits in a bollard unit has left its lane (R306). -/
def orderedBusy (s : State) (src vl : Nat) : Bool :=
  let mine := fun (q : Req) => match q.who, q.cont with
    | .device d _, .respond opc _ _ true _ => d == src && opcVl opc == vl
    | .device d _, .ack (.relay _) => d == src && vl == 0
    | _, _ => false
  let copies := fun (c : Cont) => match c with
    | .mirrored _ (.relay id) => s.fab.relays.any fun r => r.id == id && r.dst == src && vl == 0
    | _ => false
  s.held.any (fun h => mine h.req) || s.fab.deferred.any (fun d => mine d.req)
    || s.fab.outs.any (fun o => copies o.cont) || s.fab.gateway.any (fun g => copies g.1.cont)

/-- Is the packet for another device? Management packets and fan-out writes go from port to port only. -/
def inTransit (s : State) (p : Packet) : Bool :=
  pDst p != s.deviceId && !([0x0B, 0x0C, 0x0E, 0x10].contains (pOpc p))

/-- Does a splice packet wait for its tag already (R340)? Its lane buffer holds it until it is taken. -/
def spliceWaits (s : State) (port : Nat) (p : Packet) : Bool :=
  s.spl.any fun u => u.2.tags.any fun t => t.waiting.any fun w => w.ret == some (port, p)

/-- May the packet leave its buffer, as far as its own source is concerned: an ordered one in its turn, and on to another
device when its ports have not changed (R300, R305); a splice packet that does not wait for its tag? -/
def mayLeave (s : State) (port h : Nat) (p : Packet) : Bool :=
  let same := fun (x : Packet) => pOrdered x && pSrc x == pSrc p && pDst x == pDst p && pVl x == pVl p
  !spliceWaits s port p && (!pOrdered p ||
    ((s.link port h).rx.find? same == some p
      && (pDst p != s.deviceId || !orderedBusy s (pSrc p) (pVl p))
      && !(inTransit s p && isRequest p && repinHolds s (pDst p) none)))

/-- The gateway at which a packet leaves the crossbar (R295); none for one in transit, and for LINK HELLO, which ends at
its port. -/
def exitGate (s : State) (p : Packet) : Option Nat :=
  if pOpc p = 0x10 || inTransit s p then none
  else if pOpc p = 0x1F then
    some (((s.fab.outs.find? fun o => o.id == pReqId p).map fun o => gatewayOf o.who).getD 16)
  else some (gatewayAt (pAddr p))

/-- The heads at a gateway output: of each input and lane the first packet that may leave there (R296). -/
def gateHeadsAt (s : State) (g : Nat) : List Queued :=
  (upto 16).flatMap fun port => (if (s.port port).split then [0, 1] else [0]).flatMap fun h =>
    let go := (s.link port h).rx.filter fun x => exitGate s x == some g && mayLeave s port h x
    (upto 8).filterMap fun vl => (go.find? fun x => pVl x == vl).map fun x => ⟨x, packetDry s port x, port, false⟩

/-- The tie pointer of a gateway output. -/
def gatePtrOf (s : State) (g : Nat) : Nat := nth 0 s.fab.gatePtr (g - 16)

/-- Do two heads tie but for their inputs? -/
def headsTie (a b : Queued) : Bool :=
  pVl a.pkt == pVl b.pkt && (pVl a.pkt == 4 || (!dryBefore a.tdry b.tdry && !dryBefore b.tdry a.tdry))

/-- May the packet be taken now: in its turn, and at a gateway output before every other head there (R296, R305)? -/
def packetTurn (s : State) (port : Nat) (p : Packet) : Bool :=
  match rxHalf s port p with
  | none => false
  | some h => mayLeave s port h p && match exitGate s p with
    | none => true
    | some g => match best (sendsFirst (gatePtrOf s g)) (gateHeadsAt s g) with
      | some q => q.input == port && q.pkt == p
      | none => false

/-- A tie at a gateway output moves its pointer past the winner (R296). -/
def passGate (port : Nat) (p : Packet) (s : State) : State :=
  match exitGate s p with
  | none => s
  | some g =>
    let me : Queued := ⟨p, packetDry s port p, port, false⟩
    if (gateHeadsAt s g).any fun q => q.input != port && headsTie q me then
      { s with fab := { s.fab with gatePtr := put s.fab.gatePtr (g - 16) ((port + 1) % 20) } }
    else s

/-- A packet for another device passes through the crossbar (R295, R298). -/
def passOn (port : Nat) (p : Packet) (s : State) : State :=
  let q : Queued := ⟨p, packetDry s port p, port, false⟩
  let s := takeReceived port p s
  if pOrdered p && isRequest p then sendPinned q s else sendPacket q s

/-- The continuation of a request from another device. -/
def respondCont (s : State) (port : Nat) (p : Packet) : Cont :=
  .respond (pOpc p) (pSrc p) (pReqId p) (pOrdered p) (packetDry s port p)

/-- The request of another device that a packet in a receive buffer is. -/
def packetReq (s : State) (port : Nat) (p : Packet) : Req :=
  ⟨.device (pSrc p) port, pAddr p, respondCont s port p, pDst p⟩

/-- A malformed packet (R304): a request is answered, anything else discarded. -/
def rejectPacket (port : Nat) (p : Packet) (s : State) : State :=
  let dry := packetDry s port p
  let s := raiseFormat port p (takeReceived port p s)
  if isRequest p || !opcKnown (pOpc p) then sendPacket ⟨answerPacket p evFabFormat, dry, port, false⟩ s
  else s

/-- The class that a READ or WRITE carries for the stack (R204): the spec gives it no field, and AUX [1:0] holds 1 for
STREAM, 2 for KEEP, 3 for LAST, 0 for none. (DESIGN CHOICE, log entry 74) -/
def packetClass (p : Packet) : MemClass :=
  match pAux p % 4 with
  | 1 => .stream | 2 => .keep | 3 => .last
  | _ => .ordinary

/-- Is a local address a bollard word (R17)? -/
def bollardAddr (a : Nat) : Bool :=
  decide (0xD000000000 ≤ a) && decide (a < 0xD00A000000) && decide (0x2000 ≤ a % 0x4000)
    && decide (a % 0x4000 < 0x2200) && a % 8 == 0

/-- The answer of a request from another device leaves (R304): data, value or status. -/
def respondPacket (opc dst reqId addr : Nat) (ordered : Bool) (tdry : Option Int) (r : Resp) (s : State) : State :=
  match r with
  | .err code => sendResponse dst reqId addr code 0 ordered tdry [] s
  | .ok bs =>
    if opc = 0x01 then sendResponse dst reqId addr 0 0 ordered tdry bs s
    else if opc = 0x05 ∨ opc = 0x06 ∨ opc = 0x08 ∨ opc = 0x0A then
      sendResponse dst reqId addr 0 (leNat (bs.take 8)) ordered tdry [] s
    else sendResponse dst reqId addr 0 0 ordered tdry [] s

end Sys2Proof.Machine
end

