-- ==== Sys2Proof/Machine/Knots.lean ====
section
/-! DEFINITION. Chip and hall knots (R187 to R193, R307). -/

namespace Sys2Proof.Machine

/-! ## Configuration of slots as applied (R196) -/

/-- KNOT_CHIP_CFG_k.EN. -/
def chipEn (s : State) (k : Nat) : Bool := bit (s.reg .knot (0x200 + 16 * k)) 0
/-- KNOT_CHIP_CFG_k.REL_EN. -/
def chipRelEn (s : State) (k : Nat) : Bool := bit (s.reg .knot (0x200 + 16 * k)) 1
/-- KNOT_CHIP_CFG_k.REL_ADDR. -/
def chipRelAddr (s : State) (k : Nat) : Nat := s.field .knot (0x200 + 16 * k) 53 2
/-- KNOT_HALL_CFG_h. -/
def hallCfg (s : State) (h : Nat) : Nat := s.reg .knot (0x600 + 16 * h)
/-- KNOT_HALL_CFG_h.EN. -/
def hallEn (s : State) (h : Nat) : Bool := bit (hallCfg s h) 0
/-- KNOT_HALL_CFG_h.ROOT. -/
def hallRoot (s : State) (h : Nat) : Bool := bit (hallCfg s h) 1
/-- The bound chip slot of hall slot h, if BIND is set. -/
def hallBound (s : State) (h : Nat) : Option Nat :=
  if bit (hallCfg s h) 8 then some (bits (hallCfg s h) 7 2) else none
/-- The ports of CHILD_PORTS, ascending. -/
def hallChildren (s : State) (h : Nat) : List Nat := (upto 16).filter fun p => bit (hallCfg s h) (13 + p)
/-- SUBTREE. -/
def hallSubtree (s : State) (h : Nat) : Nat := bits (hallCfg s h) 41 29

/-- A slot is idle when nothing is pending in it: its pending configuration applies (R191). (DEDUCED, log entry 18) -/
def applySlot (k : Nat) (s : State) : State := applyAt .knot (.slot k) s

/-! ## Chip knots -/

/-- Bit k of CORE_KNOT_SEEN toggles at core c, bit k of CORE_KNOT_CANCELLED takes the kind of release;
a monitor on CORE_KNOT_SEEN fires (R181, R189, R191). -/
def seeRelease (k : Nat) (cancel : Bool) (c : Nat) (s : State) : State :=
  let r := s.core c
  let can := if cancel then r.cancelled ||| 2 ^ k else (r.cancelled ||| 2 ^ k) - 2 ^ k
  fireKey (seenKey c) (s.setCore c { r with seen := r.seen ^^^ 2 ^ k, cancelled := can })

/-- A release reaches the members in one polder: at once when it is ACTIVE, else after its wake (R189). -/
def releaseAtPolder (k : Nat) (cancel : Bool) (members : List Nat) (p : Nat) (s : State) : State :=
  let d := s.polder p
  if d.state = 0 then each (members.filter fun c => polderOf c == p) (seeRelease k cancel) s
  else markWake p 4 (s.setPolder p { d with knots := d.knots ++ [(k, members.filter fun c => polderOf c == p, cancel)] })

/-- A release or cancel of chip slot k (R189, R191). -/
def releaseChip (k : Nat) (cancel : Bool) (s : State) : State :=
  let t := s.chipSlot k
  let s := s.setChipSlot k { t with
    gen := (t.gen + 1) % 2 ^ 32, arrived := [], timedOut := false, bound := false, t0 := 0 }
  let relEn := chipRelEn s k
  let relAddr := chipRelAddr s k
  let s := each ((t.mask.map polderOf).eraseDups) (releaseAtPolder k cancel t.mask) s
  let s := if relEn && !cancel then sendSignal .knot relAddr 1 s else s
  applySlot k s

/-- KNOT_NOT_MEMBER or KNOT_STALE of a slot: hall slot h as 64 + h. -/
def knotEvent (code slot sub gen : Nat) (s : State) : State := raiseEv .knot code (detUnit slot sub gen) s

/-! ## Hall knots -/

/-- A knot packet leaves on a port, never routed (R307). -/
def sendKnot (opc port h gen count : Nat) (cancel : Bool) (s : State) : State :=
  let half := 0
  let dst := match (s.link port half).neighbour with
    | some (d, _) => d
    | none => 0xFFF
  sendOnPort port half
    ⟨mkPacket opc true none dst s.deviceId 0 1 0 0 h cancel (fld gen 31 0 + fld count 44 32) [], none, 16, true⟩ s

/-- The hall slot releases on this device: its children hear of it, its bound chip slot is released, or cancelled where
it is pending (R192, R193). -/
def releaseHall (h : Nat) (cancel : Bool) (s : State) : State :=
  let t := s.hallSlot h
  let gen := t.gen
  let bound := hallBound s h
  let s := each (hallChildren s h) (fun p => sendKnot 0x0C p h gen 0 cancel) s
  let s := s.setHallSlot h { mask := t.mask, gen := (gen + 1) % 2 ^ 32 }
  let s := match bound with
    | none => s
    | some k =>
      let c := s.chipSlot k
      if cancel then (if c.arrived.isEmpty then s else releaseChip k true s) else releaseChip k false s
  applySlot (64 + h) s

/-- Arrivals counted at this device: at SUBTREE the device reports to its parent, or the root releases. -/
def countHall (h n : Nat) (self : Bool) (s : State) : State :=
  let t := s.hallSlot h
  let total := t.count + n
  let t := { t with count := total, pending := true, self := t.self || self
                    t0 := if t.pending then t.t0 else s.now
                    wdog := if t.pending then t.wdog else s.field .knot 0x110 63 32 }
  let s := s.setHallSlot h t
  if total < hallSubtree s h then s
  else if hallRoot s h then releaseHall h false s
  else if t.sent then s
  else sendKnot 0x0B (bits (hallCfg s h) 12 9) h t.gen total false (s.setHallSlot h { t with sent := true })

/-- This device arrives at hall slot h (R192). -/
def arriveDevice (h : Nat) (s : State) : State :=
  let t := s.hallSlot h
  if !hallEn s h || !t.mask.contains s.deviceId then knotEvent evKnotNotMember (64 + h) s.deviceId t.gen s
  else if t.self || t.count + 1 > hallSubtree s h then knotEvent evKnotStale (64 + h) s.deviceId t.gen s
  else countHall h 1 true s

/-- The hall slot that chip slot k is bound to (R192). -/
def boundHall (s : State) (k : Nat) : Option Nat := (upto 16).find? fun h => hallBound s h == some k

/-- Core c arrives at slot k in generation gen (R188, R189, R192). -/
def arriveCore (c k gen : Nat) (s : State) : State :=
  let t := s.chipSlot k
  if !chipEn s k || t.mask.isEmpty || !t.mask.contains c then knotEvent evKnotNotMember k c gen s
  else if gen ≠ t.gen || t.arrived.contains c then knotEvent evKnotStale k c gen s
  else
    let first := t.arrived.isEmpty
    let t := { t with arrived := c :: t.arrived, t0 := if first then s.now else t.t0
                      wdog := if first then s.field .knot 0x110 31 0 else t.wdog }
    if t.arrived.length < t.mask.length then s.setChipSlot k t
    else match boundHall s k with
      | some h => arriveDevice h (s.setChipSlot k { t with bound := true })
      | none => releaseChip k false (s.setChipSlot k t)

/-- KNOT_CMD CMD 1 on a chip slot: a slot that is not pending is left alone (R191). -/
def cancelChip (k : Nat) (s : State) : State :=
  if (s.chipSlot k).arrived.isEmpty then s else releaseChip k true s

/-- KNOT_CMD CMD 1 on a hall slot: the cancel travels to the root, which releases the tree (R193). -/
def cancelHall (h : Nat) (s : State) : State :=
  if !hallEn s h then s
  else if hallRoot s h then releaseHall h true s
  else sendKnot 0x0B (bits (hallCfg s h) 12 9) h (s.hallSlot h).gen 0 true s

/-- A KNOT ARRIVE from a port (R192, R193): from a port that leads to no child it is no member's. -/
def hallArrive (port : Nat) (p : Packet) (s : State) : State :=
  let h := pAux p % 16
  let gen := wbits p.w3 31 0
  let n := wbits p.w3 44 32
  let t := s.hallSlot h
  if !hallEn s h || !(hallChildren s h).contains port then
    knotEvent evKnotNotMember (64 + h) (pSrc p) gen s
  else if gen ≠ t.gen then knotEvent evKnotStale (64 + h) (pSrc p) gen s
  else if pCancel p then cancelHall h s
  else if t.count + n > hallSubtree s h then knotEvent evKnotStale (64 + h) (pSrc p) gen s
  else countHall h n false s

/-- A KNOT RELEASE from the parent (R192, R193). -/
def hallRelease (p : Packet) (s : State) : State :=
  let h := pAux p % 16
  let gen := wbits p.w3 31 0
  let t := s.hallSlot h
  if !hallEn s h then knotEvent evKnotNotMember (64 + h) (pSrc p) gen s
  else if gen ≠ t.gen then knotEvent evKnotStale (64 + h) (pSrc p) gen s
  else releaseHall h (pCancel p) s

/-! ## Mask loads (R191) -/

/-- The positions of the set bits of a mask image, ascending. -/
def maskMembers (bs : List Byte) : List Nat :=
  ((bs.zip (upto bs.length)).flatMap fun r => (upto 8).filterMap fun j =>
    if r.1.toNat.testBit j then some (8 * r.2 + j) else none)

/-- KNOT_LOAD_BAD. -/
def maskLoadBad (slot : Nat) (s : State) : State := raiseEv .knot evKnotLoadBad (detUnit slot 0 0) s

/-- KNOT_MASK_LOAD (R191). -/
def loadMask (v : Nat) (s : State) : State :=
  let hall := bit v 46
  let k := bits v 45 40
  let src := bits v 39 0
  let slot := if hall then 64 + k else k
  let n := if hall then 512 else 1280
  if (hall && decide (16 ≤ k)) || src % 64 ≠ 0 || (if hall then hallEn s k else chipEn s k) then maskLoadBad slot s
  else
    match imageRead .knot src (n + 4) s with
    | (.held, s) => waitImage (.mask v) s
    | (.failed _, s) => maskLoadBad slot s
    | (.data bs, s) =>
      let mask := bs.take n
      let members := maskMembers mask
      if crc32c mask ≠ leNat (bs.drop n) || (hall && members.contains 4095) then maskLoadBad slot s
      else if hall then s.setHallSlot k { s.hallSlot k with mask := members }
      else s.setChipSlot k { s.chipSlot k with mask := members }

/-! ## Watchdogs (R190, R193) -/

/-- The chip watchdog of slot k has run out. -/
def chipOverdue (s : State) (k : Nat) : Bool :=
  let t := s.chipSlot k
  decide (k < 64) && !t.arrived.isEmpty && !t.timedOut && decide (t.arrived.length < t.mask.length)
    && t.wdog != 0 && s.past t.t0 t.wdog

/-- The hall watchdog of slot h has run out. -/
def hallOverdue (s : State) (h : Nat) : Bool :=
  let t := s.hallSlot h
  decide (h < 16) && t.pending && !t.timedOut && t.wdog != 0 && s.past t.t0 t.wdog

end Sys2Proof.Machine
end

