-- ==== Sys2Proof/Machine/Coils.lean ====
section
/-! DEFINITION. Data coils (R247 to R255), the saturation counter (R61, R62) and SRAM error findings (R36)
of a core. -/

namespace Sys2Proof.Machine

/-- An answer at once, or none where it is held or waits. -/
def answerOpt (q : Req) (x : Option Resp × State) : State :=
  match x.1 with
  | some r => answer q r x.2
  | none => x.2

/-! ## Configuration as applied (R257) -/

/-- CORE_COIL_CFG_n of a data coil. -/
def coilCfg (s : State) (c n : Nat) : Nat := s.reg (.core c) (0x500 + 0x20 * n)
/-- EN. -/
def coilEn (s : State) (c n : Nat) : Bool := bit (coilCfg s c n) 0
/-- MODE: 1 asynchronous. -/
def coilMode (s : State) (c n : Nat) : Nat := bits (coilCfg s c n) 1 1
/-- PROD. -/
def coilProd (s : State) (c n : Nat) : Nat := bits (coilCfg s c n) 5 4
/-- CONS. -/
def coilCons (s : State) (c n : Nat) : Nat := bits (coilCfg s c n) 9 8
/-- BASE. -/
def coilBase (s : State) (c n : Nat) : Nat := bits (coilCfg s c n) 19 12
/-- Entries of the coil. -/
def coilSize (s : State) (c n : Nat) : Nat := 2 ^ bits (coilCfg s c n) 22 20
/-- AUTO_REL. -/
def coilAutoRel (s : State) (c n : Nat) : Bool := bit (coilCfg s c n) 23

/-- Coil n of core c. -/
def State.coil (s : State) (c n : Nat) : Coil := aget {} n (s.core c).coils

/-- A data coil that is enabled and not inert (R255). -/
def coilLive (s : State) (c n : Nat) : Bool :=
  decide (3 ≤ n) && decide (n ≤ 15) && coilEn s c n && !(s.coil c n).cfgErr

/-- The rules of R255 that an enabled configuration breaks or keeps. -/
def coilBad (s : State) (c n : Nat) : Bool :=
  let b := coilBase s c n
  let z := coilSize s c n
  let p := coilProd s c n
  let k := coilCons s c n
  let others := ((upto 13).map (· + 3)).filter fun m => m != n && coilEn s c m
  decide (b < 48) || decide (b + z > 256) || others.any (fun m => overlaps b z (coilBase s c m) (coilSize s c m))
    || decide (2 ≤ p) || decide (2 ≤ k) || (p == 1 && k == 1)
    || (coilMode s c n != if p = 0 ∧ k = 0 then 0 else 1) || (coilAutoRel s c n && k != 1)

/-! ## Pointers (R248, R249) -/

/-- Entries between two pointers, modulo 2^(k+1). -/
def ptrDiff (z a b : Nat) : Nat := (a + 2 * z - b % (2 * z)) % (2 * z)

/-- Entries that can be read. -/
def readable (s : State) (c n : Nat) : Nat :=
  ptrDiff (coilSize s c n) (s.coil c n).write (s.coil c n).read
/-- Entries that can be written. -/
def free (s : State) (c n : Nat) : Nat :=
  coilSize s c n - ptrDiff (coilSize s c n) (s.coil c n).write (s.coil c n).release
/-- A pointer moved on by k. -/
def advance (s : State) (c n p k : Nat) : Nat := (p + k) % (2 * coilSize s c n)
/-- The coil memory address of the entry a pointer names. -/
def entryAddr (s : State) (c n p : Nat) : Nat := 64 * (coilBase s c n + p % coilSize s c n)

/-- Can a steward's access to the coil complete now (R253)? -/
def coilReady (s : State) (c n : Nat) (store : Bool) : Bool :=
  if store then decide (0 < free s c n) else decide (0 < readable s c n)

/-- The steward's access that waits at a core's data coil notes when it can first go on. -/
def noteCoilMet (c : Nat) (s : State) : State :=
  match (s.core c).coilWait with
  | none => s
  | some w =>
    if w.met.isNone && coilReady s c w.n w.val.isSome then
      s.setCore c { s.core c with coilWait := some { w with met := some s.now } }
    else s

/-- The state with a coil replaced. -/
def State.setCoil (s : State) (c n : Nat) (v : Coil) : State :=
  noteCoilMet c (s.setCore c { s.core c with coils := aset n v (s.core c).coils })

/-- BELAY. -/
def belayCoil (c n : Nat) (s : State) : State :=
  let k := s.coil c n
  s.setCoil c n { k with belay := k.read }
/-- REWIND: the read entries become readable again. -/
def rewindCoil (c n : Nat) (s : State) : State :=
  let k := s.coil c n
  s.setCoil c n { k with read := k.belay, rdOff := 0 }
/-- RELEASE. -/
def releaseCoil (c n : Nat) (s : State) : State :=
  let k := s.coil c n
  s.setCoil c n { k with release := k.read, belay := k.read }

/-- Writes bytes into coil memory. -/
def State.setCmem (s : State) (c a : Nat) (bs : List Byte) : State :=
  s.setCore c { s.core c with cmem := (s.core c).cmem.write a bs }

/-- A whole entry is appended by the vector engine. -/
def appendEntry (c n : Nat) (bs : List Byte) (s : State) : State :=
  let k := s.coil c n
  let s := s.setCmem c (entryAddr s c n k.write) (fit 0#8 64 bs)
  s.setCoil c n { s.coil c n with write := advance s c n k.write 1 }

/-- The next entry as the vector engine reads it. -/
def takeEntry (c n : Nat) (s : State) : List Byte × State :=
  let k := s.coil c n
  let bs := (s.core c).cmem.read (entryAddr s c n k.read) 64
  (bs, s.setCoil c n { k with read := advance s c n k.read 1 })

/-! ## The steward's side (R253) -/

/-- The access completes: 8 B appended, or the next 8 B taken. -/
def coilDo (c n : Nat) (val : Option Word) (s : State) : Resp × State :=
  let k := s.coil c n
  match val with
  | some v =>
    let s := s.setCmem c (entryAddr s c n k.write + 8 * k.wrOff) (leBytes 8 v.toNat)
    let k := s.coil c n
    (.ok [], s.setCoil c n (if k.wrOff = 7 then { k with wrOff := 0, write := advance s c n k.write 1 }
      else { k with wrOff := k.wrOff + 1 }))
  | none =>
    let bs := (s.core c).cmem.read (entryAddr s c n k.read + 8 * k.rdOff) 8
    if k.rdOff = 7 then
      let s := s.setCoil c n { k with rdOff := 0, read := advance s c n k.read 1 }
      (.ok bs, if coilAutoRel s c n then releaseCoil c n s else s)
    else (.ok bs, s.setCoil c n { k with rdOff := k.rdOff + 1 })

/-- COIL_TIMEOUT of an access. -/
def coilTimedOut (c n : Nat) (q : Req) (s : State) : State :=
  answer q (.err evCoilTimeout) (raiseEv (.core c) evCoilTimeout (detUnit n 0 0) s)

/-- An access to CORE_COIL_DATA_n by the core's own steward, 8 B. A coil whose steward side for that
direction is not the steward's, or that is disabled or inert, is unmapped (DEDUCED, log entry 16). -/
def coilAccess (c n : Nat) (val : Option Word) (q : Req) (s : State) : Option Resp × State :=
  let side := if val.isSome then coilProd s c n == 1 else coilCons s c n == 1
  if q.who != .steward c || !coilLive s c n || !side then refuse evAddrUnmapped q q.addr s
  else if coilReady s c n val.isSome then
    let (r, s) := coilDo c n val s
    (some r, s)
  else (none, s.setCore c { s.core c with coilWait := some ⟨n, val, s.now, q, none⟩ })

/-- The waiting access completes. -/
def coilResume (c : Nat) (s : State) : State :=
  match (s.core c).coilWait with
  | none => s
  | some w =>
    let (r, s) := coilDo c w.n w.val (s.setCore c { s.core c with coilWait := none })
    answer w.req r s

/-- The waiting access ends as a COIL_TIMEOUT. -/
def coilExpire (c : Nat) (s : State) : State :=
  match (s.core c).coilWait with
  | none => s
  | some w => coilTimedOut c w.n w.req (s.setCore c { s.core c with coilWait := none })

/-! ## Commands (R249, R253, R254, R257) -/

/-- May a consumer command act: the consumer is the steward, or the vector engine while it is halted? -/
def consumerMay (s : State) (c n : Nat) : Bool :=
  coilLive s c n && (coilCons s c n == 1 || (coilCons s c n == 0 && (s.core c).vec.halt))

/-- CORE_COIL_CMD_n: 1 BELAY, 2 REWIND, 3 RELEASE, 4 COMMIT; a command for a side not so placed has no
effect. COMMIT fills a partly stored entry with zeros. -/
def coilCmd (c n cmd : Nat) (s : State) : State :=
  if cmd = 1 then (if consumerMay s c n then belayCoil c n s else s)
  else if cmd = 2 then (if consumerMay s c n then rewindCoil c n s else s)
  else if cmd = 3 then (if consumerMay s c n then releaseCoil c n s else s)
  else if cmd = 4 ∧ coilLive s c n ∧ coilProd s c n = 1 ∧ (s.coil c n).wrOff ≠ 0 then
    let k := s.coil c n
    let s := s.setCmem c (entryAddr s c n k.write + 8 * k.wrOff) (List.replicate (64 - 8 * k.wrOff) 0#8)
    s.setCoil c n { s.coil c n with wrOff := 0, write := advance s c n k.write 1 }
  else s

/-! ## Configuration changes (R255) -/

/-- A changed configuration has applied: the coil is empty; an invalid one is inert. -/
def coilConfigured (c n : Nat) (s : State) : State :=
  let s := match (s.core c).coilWait with
    | some w => if w.n = n then coilExpire c s else s
    | none => s
  let bad := coilEn s c n && coilBad s c n
  let s := s.setCoil c n { cfgErr := bad }
  if bad then raiseEv (.core c) evCoilCfgBad (detUnit n 0 0) s else s

/-- The coil numbers of coil configuration offsets. -/
def coilOf (off : Nat) : Nat := (off - 0x500) / 0x20

/-- Pending coil configurations apply (R255). -/
def applyCoilCfgs (c : Nat) (l : List (Nat × Pend)) (s : State) : State :=
  let coils := (l.filter fun r => r.1 % 0x20 == 0 && decide (0x560 ≤ r.1)).map fun r => coilOf r.1
  each coils (coilConfigured c) (applyAll (.core c) l s)

/-! ## Saturations (R61, R62) -/

/-- n saturations reach the counter of core c. -/
def saturate (c n : Nat) (s : State) : State :=
  if n = 0 then s
  else
    let r := s.core c
    let w := s.field (.core c) 0x400 31 0
    let thr := s.field (.core c) 0x400 63 32
    let total := (r.satTotal + n) % 2 ^ 64
    if w = 0 then s.setCore c { r with satTotal := total }
    else
      let idx := s.now / w
      let fresh := r.satWindow != idx
      let count := min ((if fresh then 0 else r.satCount) + n) (2 ^ 32 - 1)
      let raised := !fresh && r.satRaised
      let exceeded := decide (count > thr)
      let s := s.setCore c { r with satTotal := total, satCount := count, satWindow := idx
                                    satRaised := raised || exceeded }
      if exceeded && !raised then raiseEv (.core c) evCalibDrift (detUnit 0 0 count) s else s

/-- CORE_SAT_WINDOW.COUNT: zero while the windowed check is disabled (DESIGN CHOICE, log entry 67). -/
def satWindowCount (s : State) (c : Nat) : Nat :=
  let r := s.core c
  let w := s.field (.core c) 0x400 31 0
  if w = 0 || r.satWindow != s.now / w then 0 else r.satCount

/-- A new CORE_SAT_CFG value has applied: the window count restarts (R63), and with it CALIB_DRIFT's once for a window
(DESIGN CHOICE, log entry 67). -/
def satRestart (c : Nat) (s : State) : State :=
  let w := s.field (.core c) 0x400 31 0
  s.setCore c { s.core c with satCount := 0, satRaised := false, satWindow := if w = 0 then 0 else s.now / w }

/-! ## SRAM errors (R36, R470) -/

/-- An error in core c's own SRAM, by its local address. -/
def findAt (c : Nat) (f : SramFind) : BankFind := ⟨sramAddr c f.off, f.uncorrectable⟩

/-- The offset of the first uncorrectable word that a read of [off, off + n) of a core's SRAM meets. -/
def sramBad (s : State) (c off n : Nat) : Option Nat :=
  (bankBad s (sramAddr c off) n).map fun w => w - sramAddr c 0

/-- The corrections that the read counts. -/
def sramSeeps (c off n : Nat) (s : State) : State := bankSeeps (sramAddr c off) n s

/-- SRAM_UNCORR of a word of core c's SRAM, consumed by an issuer (R36, R457). -/
def sramUncorr (c off : Nat) (w : Issuer) (s : State) : State := bankLost (sramAddr c off) 0xFFF w s

/-- A read of n bytes of core c's own SRAM by one of its units: the bytes, or the offset of the word that
could not be corrected. -/
def sramRead (c off n : Nat) (s : State) : Except Nat (List Byte) × State :=
  let s := sramSeeps c off n s
  match sramBad s c off n with
  | some o => (.error o, s)
  | none => (.ok (s.mem.read (sramAddr c off) n), s)

/-- A write to core c's own SRAM by one of its units. -/
def sramWrite (c off : Nat) (bs : List Byte) (s : State) : State :=
  memWrite (sramAddr c off) bs .ordinary s

/-- n bytes from an offset of a core's SRAM become free values. -/
def sramUndefined (c off n : Nat) (s : State) : State :=
  (upto (cdiv n 8)).foldl (fun s i =>
    let (v, s) := s.draw 64
    sramWrite c (off + 8 * i) (leBytes (min 8 (n - 8 * i)) v) s) s

/-! ## Work-record boundaries (R396) -/

/-- Some unit of core c takes, starts or finishes a record: the page boundary of its control page. -/
def recordBoundary (c : Nat) (s : State) : State :=
  let l := due s (.core c) .page
  let s := applyAll (.core c) l s
  if l.any (fun r => r.1 == 0x400) then satRestart c s else s

end Sys2Proof.Machine
end

