-- ==== Sys2Proof/Machine/Elementary.lean ====
section
/-! DEFINITION. The true values of the built-in functions of the SFU (R152), computed in fixed point far beyond the
precision of any result, and the choice of a result within their bound that keeps every function that R153 calls
monotone so. -/

namespace Sys2Proof.Machine

/-! ## Fixed point -/

/-- Fraction bits. -/
def fxBits : Nat := 320

/-- One. -/
def fxOne : Int := 2 ^ fxBits

/-- Product of two fixed-point numbers. -/
def fxMul (a b : Int) : Int := a * b / fxOne

/-- Quotient of two fixed-point numbers. -/
def fxDiv (a b : Int) : Int := a * fxOne / b

/-- A finite value in fixed point. -/
def FV.toFx : FV → Int
  | .fin n m e => FV.toIntAt n (if e + fxBits ≥ 0 then m else m / 2 ^ (-(e + fxBits)).toNat) (max (e + fxBits) 0) 0
  | _ => 0

/-- A fixed-point number times 2^k as an exact value. -/
def fxVal (x : Int) (k : Int) : FV := FV.ofScaled x (k - fxBits)

/-- Sum of terms: each is the one before times x, times a / b of its index. -/
def fxSeries (x : Int) (num den : Nat → Nat) : Nat → Nat → Int → Int → Int
  | 0, _, _, acc => acc
  | fuel + 1, i, term, acc =>
    let t := fxMul term x * num i / den i
    fxSeries x num den fuel (i + 1) t (acc + t)

/-- Sum of x^(2i+1) / (2i + 1), signs alternating or not, for powers p of x. -/
def fxOdd (x2 : Int) (alternate : Bool) : Nat → Nat → Int → Int → Int
  | 0, _, _, acc => acc
  | fuel + 1, i, p, acc =>
    let t := p / (2 * i + 1 : Nat)
    fxOdd x2 alternate fuel (i + 1) (fxMul p x2) (if alternate && i % 2 == 1 then acc - t else acc + t)

/-- atanh of |x| ≤ 1/3. -/
def fxAtanh (x : Int) : Int := fxOdd (fxMul x x) false 110 0 x 0

/-- ln 2. -/
def fxLn2 : Int := 2 * fxAtanh (fxOne / 3)

/-- atan of 1 / n. -/
def fxAtanInv (n : Nat) : Int := let x := fxOne / n; fxOdd (fxMul x x) true 80 0 x 0

/-- π. -/
def fxPi : Int := 16 * fxAtanInv 5 - 4 * fxAtanInv 239

/-- The square root of a positive number. -/
def fxSqrt (x : Int) : Int := FV.isqrt (x * fxOne).toNat

/-- e^x for |x| ≤ 1. -/
def fxExp (x : Int) : Int := fxSeries x (fun _ => 1) (fun i => i + 1) 90 0 fxOne fxOne

/-- ln(1 + x) for 0 ≤ x ≤ 1. -/
def fxLog1p (x : Int) : Int := 2 * fxAtanh (fxDiv x (2 * fxOne + x))

/-! ## True values

Where the argument lies so far out that the result differs from a limit, from the argument or from zero by less than
any result can show, a value next to it on the same side stands for it. -/

/-- Just below a value's magnitude. -/
def FV.under : FV → FV
  | .fin n m e => .fin n (m * 2 ^ 200 - 1) (e - 200)
  | v => v

/-- Just above a value's magnitude. -/
def FV.beyond : FV → FV
  | .fin n m e => .fin n (m * 2 ^ 200 + 1) (e - 200)
  | v => v

/-- Is the magnitude of a value at least n? -/
def FV.atLeast (v : FV) (n : Int) : Bool := FV.le (FV.ofInt n) v.abs

/-- Is the magnitude of a value less than 2^k? -/
def FV.tiny (v : FV) (k : Int) : Bool := FV.lt v.abs (.fin false 1 k)

/-- e^x. -/
def trueExp (v : FV) : FV :=
  if v.isZero then FV.ofInt 1
  else if v.atLeast 1000 then .fin false 1 (if v.sign then -1000 else 1000)
  else
    let x := v.toFx
    let k := (2 * x + fxLn2) / (2 * fxLn2)
    fxVal (fxExp (x - k * fxLn2)) k

/-- 2^x. -/
def trueExp2 (v : FV) : FV :=
  if v.atLeast 1000 then .fin false 1 (if v.sign then -1000 else 1000)
  else
    let x := v.toFx
    let k := (2 * x + fxOne) / (2 * fxOne)
    if x = k * fxOne then .fin false 1 k else fxVal (fxExp (fxMul (x - k * fxOne) fxLn2)) k

/-- The exponent of a positive value, and its significand in [1, 2). -/
def FV.parts : FV → Int × Int
  | .fin _ m e =>
    let l := Nat.log2 m
    (e + l, (m : Int) * fxOne / 2 ^ l)
  | _ => (0, fxOne)

/-- ln of a significand in [1, 2). -/
def fxLogSig (y : Int) : Int := 2 * fxAtanh (fxDiv (y - fxOne) (y + fxOne))

/-- ln x. -/
def trueLog (v : FV) : FV :=
  let (k, y) := v.parts
  fxVal (k * fxLn2 + fxLogSig y) 0

/-- log2 x. -/
def trueLog2 (v : FV) : FV :=
  let (k, y) := v.parts
  if y = fxOne then FV.ofInt k else fxVal (k * fxOne + fxDiv (fxLogSig y) fxLn2) 0

/-- tanh x. -/
def trueTanh (v : FV) : FV :=
  if v.isZero then v
  else if v.tiny (-60) then v.under
  else
    let z := if v.atLeast 60 then (FV.ofInt 1).under
      else let u := (trueExp (v.abs.scale 1)).toFx; fxVal (fxDiv (u - fxOne) (u + fxOne)) 0
    if v.sign then z.neg else z

/-- The logistic function. -/
def trueSigmoid (v : FV) : FV :=
  if v.sign then
    let e := trueExp v
    e.mul (fxVal (fxDiv fxOne (fxOne + e.toFx)) 0)
  else if v.atLeast 200 then (FV.ofInt 1).under
  else fxVal (fxDiv fxOne (fxOne + (trueExp v.neg).toFx)) 0

/-- e^(−w) times the sum of (2 w)^n / (1 · 3 · … · (2 n + 1)): erf u is 2 u / √π times this at w = u². -/
def erfCore (w : FV) : FV :=
  (trueExp w.neg).mul (fxVal (fxSeries (w.toFx) (fun _ => 2) (fun i => 2 * i + 3) 700 0 fxOne fxOne) 0)

/-- The error function. -/
def trueErf (v : FV) : FV :=
  if v.atLeast 13 then (if v.sign then (FV.ofInt 1).under.neg else (FV.ofInt 1).under)
  else (v.mul (erfCore (v.mul v))).mul (fxVal (fxDiv (2 * fxOne) (fxSqrt fxPi)) 0)

/-- x Φ(x). -/
def trueGelu (v : FV) : FV :=
  if v.atLeast 20 then v.under
  else
    let erf := (v.mul (erfCore ((v.mul v).scale (-1)))).mul (fxVal (fxSqrt (fxDiv (2 * fxOne) fxPi)) 0)
    v.mul (((FV.ofInt 1).add erf).scale (-1))

/-- ln(1 + e^x). -/
def trueSoftplus (v : FV) : FV :=
  if v.sign then
    let e := trueExp v
    if v.atLeast 60 then e.mul ((FV.ofInt 1).add (fxVal e.toFx (-1)).neg) else fxVal (fxLog1p e.toFx) 0
  else if v.atLeast 200 then v.beyond
  else v.add (fxVal (fxLog1p (trueExp v.neg).toFx) 0)

/-- sin x and cos x for |x| ≤ π / 4. -/
def fxSin (x : Int) : Int :=
  let m := -(fxMul x x)
  fxSeries m (fun _ => 1) (fun i => (2 * i + 2) * (2 * i + 3)) 60 0 x x
/-- cos x for |x| ≤ π / 4. -/
def fxCos (x : Int) : Int :=
  let m := -(fxMul x x)
  fxSeries m (fun _ => 1) (fun i => (2 * i + 1) * (2 * i + 2)) 60 0 fxOne fxOne

/-- sin (x + q π / 2) for |x| ≤ 65,536. -/
def trueSin (v : FV) (q : Int) : FV :=
  let x := v.toFx
  let h := fxPi / 2
  let n := (2 * x + h) / (2 * h)
  let r := x - n * h
  let s := match ((n + q) % 4).toNat with
    | 0 => fxSin r
    | 1 => fxCos r
    | 2 => -(fxSin r)
    | _ => -(fxCos r)
  fxVal s 0

/-- The true value of a built-in function where it is finite and bounded (R152). -/
def trueValue (f : Nat) (v : FV) : FV :=
  match f with
  | 1 => trueExp v
  | 2 => trueExp2 v
  | 3 => trueLog v
  | 4 => trueLog2 v
  | 5 => (FV.ofInt 1).div v
  | 6 => (FV.ofInt 1).div v.sqrt
  | 7 => v.sqrt
  | 8 => trueTanh v
  | 9 => trueSigmoid v
  | 10 => trueErf v
  | 11 => trueGelu v
  | 12 => v.mul (trueSigmoid v)
  | 13 => trueSoftplus v
  | 14 => if v.tiny (-60) then (if v.isZero then v else v.under) else trueSin v 0
  | _ => if v.isZero then FV.ofInt 1 else if v.tiny (-90) then (FV.ofInt 1).under else trueSin v 1

/-! ## Results -/

/-- The FP32 magnitude pattern next to a value's towards zero, whether the value is that exactly, and how far it lies
beyond it, in units of 2^(−128) of the step to the next pattern. -/
def cell32 (z : FV) : Nat × Bool × Nat :=
  match z with
  | .fin _ m e =>
    if m = 0 then (0, true, 0)
    else
      let top : Int := (Nat.log2 m : Int) + e
      let q : Int := max top (-126) - 23
      if top ≥ 128 then (0x7F800000, true, 0)
      else
        let n : Nat := if e ≥ q then m <<< (e - q).toNat else m >>> (q - e).toNat
        let rest : Nat := if e ≥ q then 0 else m % 2 ^ (q - e).toNat
        let bits := if n < 2 ^ 23 then n else ((q + 149 + 1).toNat <<< 23) + (n - 2 ^ 23)
        (bits, rest == 0, if e ≥ q then 0 else rest * 2 ^ 128 / 2 ^ (q - e).toNat)
  | _ => (0x7F800000, true, 0)

/-- The free threshold of function f in a cell: results beyond it are rounded away from zero. -/
def threshold (f : Nat) (neg : Bool) (t : Nat) : Nat :=
  (upto 4).foldl (fun a j => a * 2 ^ 32 + (Config.builtin (1024 + 8 * f + (if neg then 4 else 0) + j) t 0).toNat) 0

/-- A result within 1 ulp of z, monotone in z: in each cell between neighbouring FP32 values one free threshold parts
what is rounded towards zero from what is rounded away. A z that is an FP32 value itself may go to a neighbour where
the whole cell on that side does (DESIGN CHOICE, log entry 30). -/
def monotoneResult (f a : Nat) (z : FV) : Nat :=
  let neg := z.sign
  let (t, exact, d) := cell32 z
  let sgn (n : Bool) : Nat := if n then 0x80000000 else 0
  let all := 2 ^ 128 - 1
  let th := threshold f neg t
  if t = 0x7F800000 then sgn neg + t
  else if !exact then sgn neg + (if th = all || d ≤ th then t else t + 1)
  else
    let pick := (Config.builtin (1024 + 8 * f) a 1).toNat % 4
    if t = 0 then
      let n := pick % 2 == 1
      sgn n + (if 2 ≤ pick && threshold f n 0 = 0 then 1 else 0)
    else if pick = 1 && th = 0 then sgn neg + t + 1
    else if pick = 2 && threshold f neg (t - 1) = all then sgn neg + t - 1
    else sgn neg + t

end Sys2Proof.Machine
end

