-- ==== Sys2Proof/Machine/SfuUnit.lean ====
section
/-! DEFINITION. The SFU (R148 to R166): built-in functions, segment tables, micro-programs, fused forms and
loads. -/

namespace Sys2Proof.Machine

/-! ## Built-in functions (R152, R153) -/

/-- Special results of a built-in function on FP32 bits: none where only a bound is stated. -/
def builtinSpecial (f a : Nat) : Option Nat :=
  let v := f32 a
  let neg := v.sign
  let one := f32One
  let below (b : Int) : Bool := FV.lt v (FV.ofInt b)
  if v.isNan then some f32Nan
  else match f with
  | 1 => if v.isInf then some (if neg then 0 else f32PosInf) else none
  | 2 => if v.isInf then some (if neg then 0 else f32PosInf) else none
  | 3 => if v.isZero then some f32NegInf else if neg then some f32Nan else if v.isInf then some f32PosInf else none
  | 4 => if v.isZero then some f32NegInf else if neg then some f32Nan else if v.isInf then some f32PosInf else none
  | 5 => if v.isZero then some (if neg then f32NegInf else f32PosInf)
    else if v.isInf then some (if neg then 0x80000000 else 0) else none
  | 6 => if v.isZero then some (if neg then f32NegInf else f32PosInf) else if neg then some f32Nan
    else if v.isInf then some 0 else none
  | 7 => if v.isZero then some a else if neg then some f32Nan else if v.isInf then some f32PosInf else none
  | 8 => if v.isInf then some (if neg then one + 0x80000000 else one) else none
  | 9 => if v.isInf then some (if neg then 0 else one) else none
  | 10 => if v.isInf then some (if neg then one + 0x80000000 else one) else none
  | 11 => if below (-10) then some 0x80000000 else if v.isInf then some f32PosInf else none
  | 12 => if below (-88) then some 0x80000000 else if v.isInf then some f32PosInf else none
  | 13 => if v.isInf then some (if neg then 0 else f32PosInf) else none
  | 14 => if v.isInf then some f32Nan else none
  | 15 => if v.isInf then some f32Nan else none
  | _ => none

/-- The unit in the last place of FP32 at a finite value (R152). -/
def ulp32 (z : FV) : FV := .fin false 1 (max z.ilog2 (-126) - 23)

/-- The difference of two values as a magnitude. -/
def distance (a b : FV) : FV := (a.add b.neg).abs

/-- An FP32 pattern within one ulp of a value: the free one where it is, else the nearest. -/
def withinUlp (z : FV) (bits_ : Nat) : Nat :=
  let v := f32 bits_
  if v.isFin && FV.le (distance v z) (ulp32 z) then bits_ else rne32 z

/-- A pattern in [−1, 1]: the free one where it is, else +0.0. -/
def inUnit (b : Nat) : Nat := if FV.le (f32 b).abs (FV.ofInt 1) then b else 0

/-- Functions that R152 does not call monotone: GELU, SiLU, sin and cos. -/
def unordered (f : Nat) : Bool := f == 11 || f == 12 || f == 14 || f == 15

/-- A built-in function on FP32 bits. Where the spec bounds the result but does not fix it, it is a free function of the
operand within 1 ulp of the true value, monotone where R153 says so; sin and cos beyond 65,536 are free in [−1, 1]
(DESIGN CHOICE, log entry 30). -/
def builtin (f a : Nat) : Nat :=
  match builtinSpecial f a with
  | some r => r
  | none =>
    let b := (Config.builtin f a 0).toNat
    let v := f32 a
    if (f == 14 || f == 15) && FV.lt (FV.ofInt 65536) v.abs then inUnit b
    else if unordered f then withinUlp (trueValue f v) b
    else monotoneResult f a (trueValue f v)

/-! ## Tables (R155, R156) -/

/-- A descriptor as fields. -/
structure Desc where
  emin : Int
  nb : Nat
  mb : Nat
  sign : Nat
  low : Nat
  high : Nat
  guard : Bool
  dir : Nat
  base : Nat
  count : Nat
  lowVal : Nat
  highVal : Nat
deriving DecidableEq, Repr

/-- The fields of a descriptor's two words. -/
def Desc.of (w0 w1 : Nat) : Desc :=
  { emin := sext (bits w0 7 0) 8, nb := bits w0 15 8, mb := bits w0 18 16, sign := bits w0 20 19
    low := bits w0 22 21, high := bits w0 24 23, guard := bit w0 25, dir := bits w0 26 26
    base := bits w0 41 32, count := bits w0 50 42, lowVal := bits w1 31 0, highVal := bits w1 63 32 }

/-- Segments of one half. -/
def Desc.half (d : Desc) : Nat := d.nb * 2 ^ d.mb

/-- A segment of a core's user memory. -/
def segment (u : Sfu) (i : Nat) : Nat × Nat × Nat := aget (0, 0, 0) i u.segs

/-- v1 of a segment: its quadratic at 1. -/
def segEnd (g : Nat × Nat × Nat) : Nat := f32Fma (f32Fma g.2.2 f32One g.2.1) f32One g.1

/-- Minimum and maximum of FP32 patterns by R126. -/
def f32Min (a b : Nat) : Nat := rne32 ((f32 a).min' (f32 b))
/-- Maximum by R126. -/
def f32Max (a b : Nat) : Nat := rne32 ((f32 a).max' (f32 b))
/-- Negation of an FP32 pattern. -/
def f32Neg (a : Nat) : Nat := if f32IsNan a then f32Nan else a ^^^ 0x80000000

/-- Evaluation of a table at FP32 argument y (R156). -/
def tableEval (u : Sfu) (d : Desc) (y : Nat) : Nat :=
  if f32IsNan y then f32Nan
  else
    let neg := bit y 31
    let a := y % 0x80000000
    let e : Int := if a / 0x800000 = 0 then -127 else (a / 0x800000 : Nat) - 127
    let h := if d.sign = 2 && neg then d.half else 0
    let seg (i : Nat) := segment u (d.base + i)
    let flip (r : Nat) : Nat := if d.sign = 1 && neg then f32Neg r else r
    if e < d.emin then
      if d.low = 1 then y else flip (if d.low = 2 then d.lowVal else (seg h).1)
    else if e ≥ d.emin + d.nb then
      if d.high = 1 then y else flip (if d.high = 2 then d.highVal else segEnd (seg (h + d.half - 1)))
    else
      let m := a % 0x800000
      let i := h + (e - d.emin).toNat * 2 ^ d.mb + m / 2 ^ (23 - d.mb)
      let t := rne32 (.fin false (m % 2 ^ (23 - d.mb)) (-((23 - d.mb : Nat) : Int)))
      let g := seg i
      let p := f32Fma (f32Fma g.2.2 t g.2.1) t g.1
      let v1 := segEnd g
      flip (if d.guard then f32Min (f32Max p (f32Min g.1 v1)) (f32Max g.1 v1) else p)

/-! ## Micro-programs (R158, R159) -/

/-- Why a user function cannot be evaluated. -/
inductive SfuFault where
  | empty
deriving DecidableEq, Repr

/-- Registers of a running program: v0 to v7 and K. -/
structure SfuRegs where
  v : List Nat
  k : Int
deriving DecidableEq, Repr

/-- Operand code of a step: a register or a constant. -/
def sfuOperand (r : SfuRegs) (consts : List Nat) (code : Nat) : Nat :=
  if code < 8 then nth 0 r.v code else nth 0 consts (code - 8)

/-- An integer as the nearest FP32 pattern. -/
def f32OfInt (i : Int) : Nat := rne32 (FV.ofInt i)

/-- The condition of a SELECT step. -/
def sfuCond (c a b : Nat) : Bool :=
  let x := f32 a
  let y := f32 b
  match c with
  | 0 => FV.eq x y | 1 => !FV.eq x y | 2 => FV.lt x y | 3 => FV.le x y | 4 => FV.lt y x | 5 => FV.le y x
  | 6 => x.isNan
  | _ => x.isInf

/-- One step that is not END: the registers after it, none where its table is empty. -/
def sfuStep (u : Sfu) (consts : List Nat) (w : Nat) (r : SfuRegs) : Option SfuRegs :=
  let dst := bits w 6 4
  let a := sfuOperand r consts (bits w 10 7)
  let b := sfuOperand r consts (bits w 14 11)
  let c := sfuOperand r consts (bits w 18 15)
  let aux := bits w 31 19
  let set (x : Nat) : Option SfuRegs := some { r with v := put r.v dst x }
  match bits w 3 0 with
  | 1 =>
    if aux = 0 then
      match (f32 a).mul (f32 b), (f32 a).isFin && (f32 b).isFin with
      | .fin n m e, true =>
        let k := min (max (roundInt .rne n m e) (-16777216)) 16777216
        some { v := put r.v dst (rne32 (((FV.ofInt (-k)).mul (f32 c)).add (f32 a))), k := k }
      | _, _ => some { v := put r.v dst a, k := 0 }
    else match f32 a with
      | .fin n m e =>
        if m = 0 then some { v := put r.v dst a, k := 0 }
        else
          let k := (FV.fin n m e).ilog2
          some { v := put r.v dst (rne32 (FV.fin n m (e - k))), k := k }
      | _ => some { v := put r.v dst a, k := 0 }
  | 2 => match alookup aux u.tables with
    | some (w0, w1) => set (tableEval u (Desc.of w0 w1) a)
    | none => none
  | 3 =>
    let p := (f32 a).mul (f32 b)
    set (rne32 (if aux = 1 then p.add (f32 c).neg else if aux = 2 then p.neg.add (f32 c) else p.add (f32 c)))
  | 4 => set (if aux = 0 then rne32 ((f32 a).scale r.k) else rne32 (((FV.ofInt r.k).mul (f32 b)).add (f32 a)))
  | _ => if sfuCond aux a b then set c else some r

/-- Runs the steps of a program in order. -/
def sfuRun (u : Sfu) (consts : List Nat) : List Nat → SfuRegs → Except SfuFault Nat
  | [], r => .ok (nth 0 r.v 0)
  | w :: rest, r =>
    if bits w 3 0 = 0 then .ok (sfuOperand r consts (bits w 10 7))
    else match sfuStep u consts w r with
      | some r => sfuRun u consts rest r
      | none => .error .empty

/-- A NaN made canonical (R151). -/
def canonNan (a : Nat) : Nat := if f32IsNan a then f32Nan else a

/-- The function numbered F[6:0] of an FP32 argument (R148). -/
def sfuFunction (u : Sfu) (f a : Nat) : Except SfuFault Nat :=
  if f < 0x40 then .ok (builtin f a)
  else match alookup (f - 0x40) u.progs with
    | none => .error .empty
    | some ws =>
      (sfuRun u (ws.drop 16) (ws.take 16) ⟨a :: List.replicate 7 0, 0⟩).map canonNan

/-- An SFU stage on one element: its FP32 result (R149). `b` is none in the plain form; a bias pair and σ
go with the fused forms. -/
def sfuStage (u : Sfu) (f : Nat) (a : FV) (b : Option FV) (ba bg sigma : FV) : Except SfuFault Nat :=
  match b with
  | none => sfuFunction u (f % 128) (rne32 a)
  | some b =>
    if f < 128 then
      (sfuFunction u (f % 128) (rne32 (a.add b))).map fun r => rne32 ((f32 r).mul sigma)
    else
      let x := rne32 (a.add ba)
      let g := rne32 (b.add bg)
      (sfuFunction u (f % 128) x).map fun r => rne32 ((f32 (f32Mul g r)).mul sigma)

/-! ## Loads (R162 to R164) -/

/-- Fields of a load word. -/
def loadKind (v : Nat) : Nat := bits v 24 24
/-- The slot a load names. -/
def loadSlot (v : Nat) : Nat := bits v 23 18

/-- A descriptor outside R155. -/
def descBad (w0 w1 : Nat) : Bool :=
  let d := Desc.of w0 w1
  bits w0 31 27 != 0 || bits w0 63 51 != 0 || d.sign == 3 || d.low == 3 || d.high == 3

/-- The limits of R155. -/
def descLimits (w0 w1 : Nat) : Bool :=
  let d := Desc.of w0 w1
  decide (d.emin < -126) || d.nb == 0 || decide (d.emin + d.nb > 128)
    || decide (d.count < (if d.sign = 2 then 2 * d.half else d.half)) || d.count == 0
    || decide (d.count > 256) || decide (d.base + d.count > 1024)

/-- Do the guard's checks hold on one half: segments in order, constants, direction (R157)? -/
def guardHalf (d : Desc) (segs : List (Nat × Nat × Nat)) (increasing : Bool) : Bool :=
  let le (a b : FV) : Bool := if increasing then FV.le a b else FV.le b a
  let zero := FV.zero
  let n := segs.length
  let slope := segs.all fun g =>
    le zero (f32 g.2.1) && le zero ((f32 g.2.1).add ((f32 g.2.2).scale 1))
  let seams := (upto (n - 1)).all fun i =>
    le (f32 (segEnd (nth (0, 0, 0) segs i))) (f32 (nth (0, 0, 0) segs (i + 1)).1)
  let low := d.low != 2 || le (f32 d.lowVal) (f32 (nth (0, 0, 0) segs 0).1)
  let high := d.high != 2 || le (f32 (segEnd (nth (0, 0, 0) segs (n - 1)))) (f32 d.highVal)
  slope && seams && low && high

/-- Does a guarded table fail R157? -/
def guardBad (d : Desc) (segs : List (Nat × Nat × Nat)) : Bool :=
  d.guard && (!guardHalf d (segs.take d.half) (d.dir == 0)
    || (d.sign == 2 && !guardHalf d ((segs.drop d.half).take d.half) (d.dir == 1)))

/-- The segments of a table block, with the reserved word of each. -/
def blockSegs (bs : List Byte) : List ((Nat × Nat × Nat) × Nat) :=
  (chunks 15 (bs.length / 16 - 1) (bs.drop 16)).map fun g =>
    ((leNat (g.take 4), leNat ((g.drop 4).take 4), leNat ((g.drop 8).take 4)), leNat (g.drop 12))

/-- A step with a reserved OP, AUX bit or field (R159, R164). -/
def stepBad (w : Nat) : Bool :=
  let aux := bits w 31 19
  let b := bits w 14 11
  let c := bits w 18 15
  match bits w 3 0 with
  | 0 => aux != 0 || bits w 6 4 != 0 || b != 0 || c != 0
  | 1 => decide (1 < aux) || (aux == 1 && (b != 0 || c != 0))
  | 2 => decide (15 < aux) || b != 0 || c != 0
  | 3 => decide (2 < aux)
  | 4 => decide (1 < aux) || c != 0
  | 5 => decide (7 < aux)
  | _ => true

/-- Cause of a table block's failure, 0 for none; uncorrectable words apart. -/
def tableCause (slot crc : Nat) (bs : List Byte) : Nat :=
  let w0 := leNat (bs.take 8)
  let w1 := leNat ((bs.drop 8).take 8)
  let segs := blockSegs bs
  let d := Desc.of w0 w1
  if crc32c bs ≠ crc then 1
  else if decide (15 < slot) || descBad w0 w1 || descLimits w0 w1 || segs.any (fun g => g.2 != 0)
    || segs.any (fun g => !(f32 g.1.1).isFin || !(f32 g.1.2.1).isFin || !(f32 g.1.2.2).isFin) then 2
  else if guardBad d (segs.map (·.1)) then 3
  else 0

/-- Cause of a program block's failure. -/
def programCause (crc : Nat) (bs : List Byte) : Nat :=
  let ws := (chunks 3 24 bs).map leNat
  if crc32c bs ≠ crc then 1 else if (ws.take 16).any stepBad then 2 else 0

/-- A load fails: its slot is empty, the cause is recorded, SFU_LOAD_BAD is raised (R164). An overrun leaves
the slot as it is. -/
def loadFails (c v cause : Nat) (s : State) : State :=
  let r := s.core c
  let u := r.sfu
  let k := loadKind v
  let slot := loadSlot v
  let u := { u with errSlot := slot, errProg := k == 1, errCause := cause }
  let u := if cause = 4 then u
    else if k = 1 then { u with progs := adel slot u.progs } else { u with tables := adel slot u.tables }
  raiseEv (.core c) evSfuLoadBad (detUnit slot k cause) (s.setCore c { r with sfu := u })

/-- Bytes of a load block: a table's length lies in its descriptor. -/
def loadLength (s : State) (c v : Nat) : Nat :=
  let off := bits v 17 0
  if loadKind v = 1 then 96
  else 16 + 16 * bits (leNat (s.mem.read (sramAddr c off) 8)) 50 42

/-- One queued load applies (R164). -/
def applyLoad (c : Nat) (v : Nat) (s : State) : State :=
  let off := bits v 17 0
  let crc := bits v 63 32
  let slot := loadSlot v
  if off % 64 ≠ 0 || off + 16 > 0x40000 then loadFails c v 2 s
  else
    let n := loadLength s c v
    if off + n > 0x40000 then loadFails c v 2 s
    else match sramRead c off n s with
      | (.error o, s) => sramUncorr c o (.vector c 0) (loadFails c v 5 s)
      | (.ok bs, s) =>
        let cause := if loadKind v = 1 then programCause crc bs else tableCause slot crc bs
        if cause ≠ 0 then loadFails c v cause s
        else
          let r := s.core c
          let u := r.sfu
          let u := if loadKind v = 1 then { u with progs := aset slot ((chunks 3 24 bs).map leNat) u.progs }
            else
              let d := Desc.of (leNat (bs.take 8)) (leNat ((bs.drop 8).take 8))
              let segs := (blockSegs bs).map (·.1)
              { u with
                tables := aset slot (leNat (bs.take 8), leNat ((bs.drop 8).take 8)) u.tables
                segs := (upto segs.length).foldl (fun l i => aset (d.base + i) (nth (0, 0, 0) segs i) l) u.segs }
          s.setCore c { r with sfu := u }

/-- Every queued load applies, in write order (R163). -/
def applyLoads (c : Nat) (s : State) : State :=
  let r := s.core c
  let q := r.sfu.queue
  each q (fun v => applyLoad c v.toNat) (s.setCore c { r with sfu := { r.sfu with queue := [] } })

/-- A write of CORE_SFU_LOAD: queued, or discarded as an overrun (R163). -/
def queueLoad (c : Nat) (v : Word) (s : State) : State :=
  let r := s.core c
  if r.sfu.queue.length ≥ 8 then loadFails c v.toNat 4 s
  else s.setCore c { r with sfu := { r.sfu with queue := r.sfu.queue ++ [v] } }

/-- CORE_SFU_STATUS (R166). -/
def sfuStatus (s : State) (c : Nat) : Nat :=
  let u := (s.core c).sfu
  fld u.errSlot 47 40 + fld (b2n u.errProg) 39 39 + fld u.errCause 38 36
    + fld (maskOf (u.tables.map (·.1))) 31 16 + fld u.queue.length 3 0

end Sys2Proof.Machine
end

