-- ==== Sys2Proof/Machine/Sparse.lean ====
section
/-! DEFINITION. Structured sparsity (R98 to R112): legal patterns, the value and code planes, the check of
a code plane, and the compressor's treatment of one tile. -/

namespace Sys2Proof.Machine

/-- The count k of a class (R98): 1 P50, 2 P25. -/
def classK (cls : Nat) : Nat := if cls = 2 then 1 else 2

/-- Bytes of a value plane (R101). -/
def planeBytes (cls : Nat) : Nat := if cls = 2 then 64 else 128

/-- The masks of four bits with k set, ascending. -/
def nibbles (k : Nat) : List Nat :=
  (upto 16).filter fun n => ((upto 4).filter fun i => n.testBit i).length == k

/-- Does every group of a mask hold k kept positions, given that every line does? -/
def groupsOk (k m : Nat) : Bool :=
  (upto 4).all fun j => ((upto 4).filter fun i => m.testBit (4 * i + j)).length == k

/-- The legal masks of a class by index: ascending (R100). -/
def legalMasks (k : Nat) : List Nat :=
  let n := nibbles k
  n.flatMap fun a => n.flatMap fun b => n.flatMap fun c => n.filterMap fun d =>
    let m := a * 4096 + b * 256 + c * 16 + d
    if groupsOk k m then some m else none

/-- A fault of the compressor: kind 0 group, 1 line; block g, h; the column or row within it. -/
structure SparseFault where
  kind : Nat
  g : Nat
  h : Nat
  pos : Nat
deriving DecidableEq, Repr

/-- Magnitude for ranking: 0x80 above every other value (R109). -/
def rankMag (b : Nat) : Nat := if b = 0x80 then 256 else (sext b 8).natAbs

/-- The rows of one group that are kept in PRUNE: the k highest ranked non-zero weights. -/
def keptRows (k : Nat) (col : List Nat) : List Nat :=
  let nz := (upto 4).filter fun i => nth 0 col i != 0
  let first (a b : Nat) : Bool := decide (rankMag (nth 0 col a) > rankMag (nth 0 col b))
    || (rankMag (nth 0 col a) == rankMag (nth 0 col b) && decide (a ≤ b))
  (sortBy first nz).take k

/-- The group step of R109 on column j of a block: the group with what is left of it and the weights
pruned, or the fault. In S8 the code 0x80 is −128 and no escape. -/
def groupStep (k : Nat) (escapes prune : Bool) (col : List Nat) : Option (List Nat × Nat) :=
  let nz := (col.filter (· != 0)).length
  let esc := if escapes then (col.filter (· == 0x80)).length else 0
  if esc > k then none
  else if nz ≤ k then some (col, 0)
  else if !prune then none
  else
    let keep := keptRows k col
    some ((upto 4).map fun i => if keep.contains i then nth 0 col i else 0, nz - k)

/-- One block of a tile (R109): `col j` are its groups. The kept positions as a mask, the groups after the
group step, the weights pruned. Of several over-full groups or lines the fault names the lowest stored column or row.
(DESIGN CHOICE, log entry 77) -/
def blockStep (k : Nat) (escapes prune : Bool) (cols : List (List Nat)) :
    Except (Nat × Nat) (Nat × List (List Nat) × Nat) :=
  let done := cols.map (groupStep k escapes prune)
  match (upto 4).find? fun j => (nth none done j).isNone with
  | some j => .error (0, j)
  | none =>
    let cs := done.map fun d => (d.getD ([], 0)).1
    let pruned := (done.map fun d => (d.getD ([], 0)).2).sum
    let line (i : Nat) : Nat := ((upto 4).filter fun j => nth 0 (nth [] cs j) i != 0).length
    match (upto 4).find? fun i => decide (line i > k) with
    | some i => .error (1, i)
    | none =>
      let need := (upto 4).foldl (fun m i => (upto 4).foldl (fun m j =>
        if nth 0 (nth [] cs j) i != 0 then m ||| 2 ^ (4 * i + j) else m) m) 0
      match (legalMasks k).find? fun m => m &&& need == need with
      | some m => .ok (m, cs, pruned)
      | none => .error (1, 0)

/-- The blocks of a tile by ascending g, then h: their masks and groups, or the first fault (R109, R110).
`w i j` is the weight at stored row i and column j. -/
def tileBlocks (k : Nat) (escapes prune : Bool) (w : Nat → Nat → Nat) :
    Except SparseFault (List (Nat × List (List Nat) × Nat)) :=
  (upto 16).foldl (fun acc b =>
    match acc with
    | .error e => .error e
    | .ok l =>
      let g := b / 4
      let h := b % 4
      let cols := (upto 4).map fun j => (upto 4).map fun i => w (4 * g + i) (4 * h + j)
      match blockStep k escapes prune cols with
      | .error (kind, pos) => .error ⟨kind, g, h, pos⟩
      | .ok r => .ok (l ++ [r])) (.ok [])

/-- Value plane, code plane and weights pruned of a tile (R101, R102). -/
def compressTile (cls : Nat) (escapes prune : Bool) (w : Nat → Nat → Nat) :
    Except SparseFault (List Byte × List Byte × Nat) :=
  let k := classK cls
  match tileBlocks k escapes prune w with
  | .error e => .error e
  | .ok l =>
    let kept := (upto 4).flatMap fun g => (upto 16).flatMap fun j =>
      let (m, cols, _) := nth (0, [], 0) l (4 * g + j / 4)
      ((upto 4).filter fun i => m.testBit (4 * i + j % 4)).map fun i =>
        (i, nth 0 (nth [] cols (j % 4)) i)
    let vals := kept.map fun r => BitVec.ofNat 8 r.2
    let codes := (upto (kept.length / 4)).map fun v =>
      BitVec.ofNat 8 ((upto 4).foldl (fun a x => a + (nth (0, 0) kept (4 * v + x)).1 * 4 ^ x) 0)
    .ok (vals, codes, (l.map fun r => r.2.2).sum)

/-- The 2-bit code of a value-plane position (R102). -/
def codeOf (codes : List Byte) (v : Nat) : Nat := (nth 0#8 codes (v / 4)).toNat / 4 ^ (v % 4) % 4

/-- Stored row and column of a value-plane position (R101). -/
def planeCell (cls : Nat) (codes : List Byte) (v : Nat) : Nat × Nat :=
  if cls = 2 then (4 * (v / 16) + codeOf codes v, v % 16)
  else (4 * (v / 32) + codeOf codes v, v % 32 / 2)

/-- Does a tile's code plane pass the checks of R106? -/
def codesOk (cls : Nat) (codes : List Byte) : Bool :=
  let k := classK cls
  let n := planeBytes cls
  let ascending := cls == 2 || (upto (n / 2)).all fun i => decide (codeOf codes (2 * i) < codeOf codes (2 * i + 1))
  let cells := (upto n).map (planeCell cls codes)
  ascending && (upto 16).all fun r => (upto 4).all fun h =>
    (cells.filter fun c => c.1 == r && c.2 / 4 == h).length == k

/-- A compressed tile as its sixteen rows of sixteen weights; a position not kept holds zero. -/
def expandTile (cls : Nat) (vals codes : List Byte) : List (Nat × Nat × Nat) :=
  (upto (planeBytes cls)).map fun v =>
    let (r, c) := planeCell cls codes v
    (r, c, (nth 0#8 vals v).toNat)

end Sys2Proof.Machine
end

