-- ==== Sys2Proof/Machine/StrandRec.lean ====
section
/-! DEFINITION. Strand records: their fields and shape block (R202, R203), the issue checks (R218 to R221,
R238, R240), element addresses (R206, R207, R222, R237) and conversion (R208, R245). -/

namespace Sys2Proof.Machine

/-- A strand record with its shape block, as fields (R202, R203). -/
structure SRec where
  type_ : Nat
  op : Nat
  waitEn : Bool
  sigEn : Bool
  sigEach : Bool
  relEn : Bool
  stoch : Bool
  srcCode : Nat
  dstCode : Nat
  braid : Nat
  srcHint : Nat
  dstHint : Nat
  comp : Nat
  prune : Bool
  idx64 : Bool
  zero : Bool
  slots : Nat
  tag : Nat
  src : Nat
  dst : Nat
  shapeOff : Nat
  idxOff : Nat
  nb : Nat
  period : Nat
  waitAddr : Nat
  waitValue : Int
  sigAddr : Nat
  sigAdd : Nat
  e0 : Nat
  e1 : Nat
  e2 : Nat
  e3 : Nat
  ss1 : Nat
  ss2 : Nat
  ss3 : Nat
  ds1 : Nat
  ds2 : Nat
  ds3 : Nat
  srcB : Nat
  dstB : Nat
  items : Nat
  relAddr : Nat
  codeAddr : Nat
  seed : Nat
  tensor : Nat
  indexBase : Nat
deriving DecidableEq, Repr

/-- Bits [hi:lo] of word i of a list of words. -/
def wordBits (l : List Word) (i hi lo : Nat) : Nat := wbits (nth 0 l i) hi lo

/-- The fields of a record and its shape block. -/
def SRec.of (w sh : List Word) : SRec :=
  let r := wordBits w
  let h := wordBits sh
  { type_ := r 0 3 0, op := r 0 6 4, waitEn := r 0 7 7 == 1, sigEn := r 0 8 8 == 1, sigEach := r 0 9 9 == 1
    relEn := r 0 10 10 == 1, stoch := r 0 11 11 == 1, srcCode := r 0 15 12, dstCode := r 0 19 16
    braid := r 0 23 20, srcHint := r 0 25 24, dstHint := r 0 27 26, comp := r 0 29 28, prune := r 0 30 30 == 1
    idx64 := r 0 31 31 == 1, zero := r 0 32 32 == 1, slots := r 0 36 33 + 1, tag := r 0 63 48
    src := r 1 51 0, dst := r 2 51 0, shapeOff := r 3 17 0, idxOff := r 3 35 18, nb := r 3 59 36
    period := r 4 31 0, waitAddr := r 5 51 0, waitValue := (nth 0 w 6).signed
    sigAddr := r 7 51 0, sigAdd := r 7 63 52
    e0 := h 0 31 0, e1 := h 0 63 32, e2 := h 1 31 0, e3 := h 1 63 32
    ss1 := h 2 39 0, ss2 := h 3 39 0, ss3 := h 4 39 0, ds1 := h 5 39 0, ds2 := h 6 39 0, ds3 := h 7 39 0
    srcB := h 8 39 0, dstB := h 9 39 0, items := h 10 31 0, relAddr := h 11 51 0, codeAddr := h 12 51 0
    seed := h 13 63 0, tensor := h 14 31 0, indexBase := h 15 63 0 }

/-- The source format. -/
def SRec.srcFmt (r : SRec) : Fmt := (Fmt.ofCode r.srcCode).getD .s8
/-- The destination format. -/
def SRec.dstFmt (r : SRec) : Fmt := (Fmt.ofCode r.dstCode).getD .s8
/-- Elements of a block (R206). -/
def SRec.q (r : SRec) : Nat := r.e0 * r.e1 * r.e2 * r.e3
/-- Elements of the strand. -/
def SRec.total (r : SRec) : Nat := r.nb * r.q
/-- Rows of a block. -/
def SRec.rows (r : SRec) : Nat := r.e1 * r.e2 * r.e3
/-- The braid's unit g (R237). -/
def SRec.unit (r : SRec) : Nat := 2 ^ (r.braid - 1)
/-- Bytes of one index. -/
def SRec.indexSize (r : SRec) : Nat := if r.idx64 then 8 else 4
/-- Tiles along the stored columns of a compressing strand (R221). -/
def SRec.tilesO (r : SRec) : Nat := cdiv r.e0 16
/-- Tiles along its stored rows. -/
def SRec.tilesR (r : SRec) : Nat := cdiv r.e1 16

/-! ## Issue checks (R218) -/

/-- Reserved bits of the record (R202). -/
def recReserved (w : List Word) : Bool :=
  let r := wordBits w
  r 0 47 37 != 0 || r 1 63 52 != 0 || r 2 63 52 != 0 || r 3 63 60 != 0 || r 4 63 32 != 0 || r 5 63 52 != 0

/-- The extents of the dimensions that DS1 to DS3 step over: R240 for a braid, the tiles for a
compressing strand. -/
def SRec.dstExtents (r : SRec) : Nat × Nat × Nat :=
  if r.braid ≠ 0 then (r.e0 / r.unit, r.e2, r.e3)
  else if r.comp ≠ 0 then (r.tilesO, r.tilesR, 1)
  else (r.e1, r.e2, r.e3)

/-- Reserved bits of the words of the shape block that the record uses (R203). -/
def shapeReserved (r : SRec) (sh : List Word) : Bool :=
  let h := wordBits sh
  let (d1, d2, d3) := r.dstExtents
  let hi (use : Bool) (i lo : Nat) : Bool := use && h i 63 lo != 0
  hi (decide (r.e1 > 1) || r.op == 1) 2 40 || hi (decide (r.e2 > 1)) 3 40 || hi (decide (r.e3 > 1)) 4 40
    || hi (decide (d1 > 1) || decide (2 ≤ r.op)) 5 40 || hi (decide (d2 > 1)) 6 40 || hi (decide (d3 > 1)) 7 40
    || hi (decide (r.nb > 1)) 8 40 || hi (decide (r.slots > 1)) 9 40
    || hi (r.op != 0) 10 32 || hi r.relEn 11 52 || hi (r.comp != 0) 12 52 || hi r.stoch 14 32

/-- An endpoint of R204. -/
def endpointOk (hall : Nat) : Bool := inHbm hall || inSram hall

/-- A reserved format pairing (R208). -/
def pairingBad (a b : Nat) : Bool := decide (10 < a) || decide (10 < b) || (a != b && (9 ≤ a || 9 ≤ b))

/-- A compressing strand outside R107 or R221. -/
def compressBad (r : SRec) : Bool :=
  let z := planeBytes r.comp
  r.op != 0 || r.braid != 0 || r.nb != 1 || r.slots != 1 || r.e2 != 1 || r.e3 != 1
    || !(r.srcCode == 6 || r.srcCode == 10) || r.dstCode != r.srcCode
    || r.ds1 % z != 0 || r.ds2 % z != 0

/-- A braided strand outside R238. -/
def braidBad (r : SRec) : Bool :=
  decide (1 < r.op) || r.comp != 0 || decide (r.e0 * r.dstFmt.width > 512) || r.e0 % r.unit != 0

/-- STRAND_FORMAT. -/
def strandFormatBad (s : State) (r : SRec) (w sh : List Word) : Bool :=
  recReserved w || r.type_ != 3 || decide (3 < r.op) || decide (3 < r.braid) || r.srcHint == 3
    || decide (1 < r.dstHint) || r.comp == 3 || shapeReserved r sh
    || r.e0 == 0 || r.e1 == 0 || r.e2 == 0 || r.e3 == 0 || r.nb == 0 || (r.op != 0 && r.items == 0)
    || (r.sigEn && r.sigAdd == 0)
    || pairingBad r.srcCode r.dstCode
    || !endpointOk r.src || !endpointOk r.dst || (r.comp != 0 && !endpointOk r.codeAddr)
    || (r.op == 3 && ((remoteOf s r.dst).isSome || !(r.dstCode == 0 || r.dstCode == 8)))
    || (r.waitEn && !isOwnAlias s r.waitAddr) || (r.relEn && !isOwnAlias s r.relAddr)
    || (r.sigEn && !isAlias r.sigAddr)
    || decide (r.shapeOff + 128 > 0x40000)
    || (r.op != 0 && decide (r.idxOff + r.nb * r.rows * r.indexSize > 0x40000))
    || (r.comp != 0 && compressBad r) || (decide (2 ≤ r.op) && (r.slots != 1 || r.braid != 0))
    || (r.braid != 0 && braidBad r)

/-- The access width of an endpoint (R218). -/
def endpointWidth (s : State) (hall : Nat) : Nat :=
  if (remoteOf s hall).isNone && inSram hall then 16 else 64

/-- STRAND_ALIGN. -/
def strandAlignBad (s : State) (r : SRec) : Bool :=
  let sw := endpointWidth s r.src
  let dw := endpointWidth s r.dst
  let (d1, d2, d3) := r.dstExtents
  let bad (use : Bool) (v w : Nat) : Bool := use && v % w != 0
  bad true r.src sw || bad true r.dst dw || bad (r.comp != 0) r.codeAddr (endpointWidth s r.codeAddr)
    || bad (r.op != 0) r.idxOff r.indexSize
    || bad (decide (r.e1 > 1)) r.ss1 sw || bad (decide (r.e2 > 1)) r.ss2 sw || bad (decide (r.e3 > 1)) r.ss3 sw
    || bad (decide (r.nb > 1)) r.srcB sw
    || bad (decide (d1 > 1)) r.ds1 dw || bad (decide (d2 > 1)) r.ds2 dw || bad (decide (d3 > 1)) r.ds3 dw
    || bad (decide (r.slots > 1)) r.dstB dw

/-- A footprint: device, whether in SRAM, first and last byte (R219). -/
structure Foot where
  dev : Nat
  sram : Bool
  lo : Nat
  hi : Nat
deriving DecidableEq, Repr

/-- A footprint from a base to an offset past it. -/
def footOf (s : State) (hall last : Nat) : Foot :=
  ⟨(remoteOf s hall).getD s.deviceId, inSram hall, localOf hall, localOf hall + last⟩

/-- Do two footprints overlap? -/
def footMeet (a b : Foot) : Bool :=
  a.dev == b.dev && a.sram == b.sram && decide (a.lo ≤ b.hi) && decide (b.lo ≤ a.hi)

/-- The source and index footprints (R219). -/
def sourceFeet (s : State) (c : Nat) (r : SRec) : List Foot :=
  let row := r.srcFmt.bytes r.e0
  let base := (r.nb - 1) * r.srcB
  let src := if r.op = 1 then footOf s r.src (base + (r.items - 1) * r.ss1 + row - 1)
    else footOf s r.src (base + (r.e1 - 1) * r.ss1 + (r.e2 - 1) * r.ss2 + (r.e3 - 1) * r.ss3 + row - 1)
  if r.op = 0 then [src]
  else
    let lo := sramAddr c r.idxOff
    [src, ⟨s.deviceId, true, lo, lo + r.nb * r.rows * r.indexSize - 1⟩]

/-- The destination footprints (R219, R221, R240). -/
def destFeet (s : State) (r : SRec) : List Foot :=
  let row := r.dstFmt.bytes r.e0
  let ring := (min r.nb r.slots - 1) * r.dstB
  if r.comp ≠ 0 then
    let z := planeBytes r.comp
    let last := (r.tilesO - 1) * r.ds1 + (r.tilesR - 1) * r.ds2
    [footOf s r.dst (last + z - 1), footOf s r.codeAddr (last / 4 + z / 4 - 1)]
  else if 2 ≤ r.op then [footOf s r.dst ((r.items - 1) * r.ds1 + row - 1)]
  else if r.braid ≠ 0 then
    [footOf s r.dst (ring + (r.e0 / r.unit - 1) * r.ds1 + (r.e2 - 1) * r.ds2 + (r.e3 - 1) * r.ds3
      + r.dstFmt.bytes (r.e1 * r.unit) - 1)]
  else [footOf s r.dst (ring + (r.e1 - 1) * r.ds1 + (r.e2 - 1) * r.ds2 + (r.e3 - 1) * r.ds3 + row - 1)]

/-- The copy onto itself of R220. -/
def strandNoop (s : State) (r : SRec) : Bool :=
  let same (e a b : Nat) : Bool := decide (e ≤ 1) || a == b
  r.op == 0 && r.braid == 0 && r.comp == 0 && r.nb == 1 && r.slots == 1 && r.srcCode == r.dstCode
    && same r.e1 r.ss1 r.ds1 && same r.e2 r.ss2 r.ds2 && same r.e3 r.ss3 r.ds3
    && remoteOf s r.src == remoteOf s r.dst && localOf r.src == localOf r.dst

/-- STRAND_OVERLAP. -/
def strandOverlapBad (s : State) (c : Nat) (r : SRec) : Bool :=
  !strandNoop s r && (destFeet s r).any fun d => (sourceFeet s c r).any fun f => footMeet d f

/-- The ordered checks: the event that rejects the record, if any (R218). -/
def strandCheck (s : State) (c : Nat) (r : SRec) (w sh : List Word) : Option Nat :=
  if strandFormatBad s r w sh then some evStrandFormat
  else if strandAlignBad s r then some evStrandAlign
  else if strandOverlapBad s c r then some evStrandOverlap
  else none

/-! ## Positions and addresses (R206, R207, R222, R237) -/

/-- An address with its device apart: none for this device. -/
structure Place where
  dev : Option Nat
  addr : Nat
deriving DecidableEq, Repr

/-- The place an offset past a hall address names. -/
def placeOf (s : State) (hall off : Nat) : Place := ⟨remoteOf s hall, localOf hall + off⟩

/-- The hall address of a place. -/
def Place.hall (s : State) (p : Place) : Nat := (p.dev.getD s.deviceId) * 0x10000000000 + p.addr % 0x10000000000

/-- Coordinates of a position: block, i3, i2, i1, i0. -/
def coords (r : SRec) (p : Nat) : Nat × Nat × Nat × Nat × Nat :=
  let i0 := p % r.e0
  let x := p / r.e0
  let i1 := x % r.e1
  let x := x / r.e1
  let i2 := x % r.e2
  let x := x / r.e2
  (x / r.e3, x % r.e3, i2, i1, i0)

/-- Byte offset of element i0 in a row. -/
def elemByte (f : Fmt) (i0 : Nat) : Nat := i0 * f.width / 8

/-- The source of a position; in a gather the row is that of the index. -/
def srcPlace (s : State) (r : SRec) (p idx : Nat) : Place :=
  let (b, i3, i2, i1, i0) := coords r p
  let row := if r.op = 1 then idx * r.ss1 else i3 * r.ss3 + i2 * r.ss2 + i1 * r.ss1
  placeOf s r.src (b * r.srcB + row + elemByte r.srcFmt i0)

/-- The destination of a position without the braid; in a scatter the row is that of the index. -/
def dstPlace (s : State) (r : SRec) (p idx : Nat) : Place :=
  let (b, i3, i2, i1, i0) := coords r p
  let row := if 2 ≤ r.op then idx * r.ds1 else i3 * r.ds3 + i2 * r.ds2 + i1 * r.ds1
  placeOf s r.dst (b % r.slots * r.dstB + row + elemByte r.dstFmt i0)

/-- The offset of the index of a position's item in the core's SRAM (R222). -/
def indexOff (r : SRec) (p : Nat) : Nat := r.idxOff + p / r.e0 * r.indexSize

/-- Elements, from one at an address on, that begin in the address's 64 B line. -/
def inLine (f : Fmt) (addr : Nat) : Nat := cdiv ((64 - addr % 64) * 8) f.width

/-- Elements of the source request that begins at a position: those of its row in the same source line. A
pair of 4-bit destination elements is not torn. -/
def requestLen (r : SRec) (p addr : Nat) : Nat :=
  let i0 := p % r.e0
  let n := min (inLine r.srcFmt addr) (r.e0 - i0)
  if r.dstFmt.width = 4 && (i0 + n) % 2 == 1 && decide (i0 + n < r.e0) then n + 1 else n

/-! ## Elements in bytes (R38, R245) -/

/-- n elements of a format from bytes; the first is in the high nibble where `odd`. -/
def elemsOf (f : Fmt) (bs : List Byte) (odd : Bool) (n : Nat) : List Nat :=
  if f.width = 4 then
    let o := b2n odd
    (upto n).map fun i => (nth 0#8 bs ((i + o) / 2)).toNat / 16 ^ ((i + o) % 2) % 16
  else
    let z := f.width / 8
    (upto n).map fun i => leNat ((bs.drop (i * z)).take z)

/-- Pairs of nibbles as bytes; a last odd one has a zero pad nibble. -/
def packNibbles : List Nat → List Byte
  | [] => []
  | [a] => [BitVec.ofNat 8 (a % 16)]
  | a :: b :: r => BitVec.ofNat 8 (a % 16 + 16 * (b % 16)) :: packNibbles r

/-- Elements of a format as bytes. -/
def bytesOf (f : Fmt) (l : List Nat) : List Byte :=
  if f.width = 4 then packNibbles l else l.flatMap (leBytes (f.width / 8))

/-- Conversion of one element at a position (R208, R60): its bits, and 1 where it is counted. -/
def convAt (r : SRec) (p v : Nat) : Nat × Nat :=
  let mode := if r.stoch then .stoch (gen24 r.seed r.tensor (r.indexBase + p)) else .rne
  let (b, c) := convElem r.srcFmt r.dstFmt mode v
  (b, b2n c)

/-- Conversion of consecutive elements: their bits and how many are counted. -/
def convAll (r : SRec) (p : Nat) (l : List Nat) : List Nat × Nat :=
  let cs := (upto l.length).map fun i => convAt r (p + i) (nth 0 l i)
  (cs.map (·.1), (cs.map (·.2)).sum)

end Sys2Proof.Machine
end

