-- ==== Sys2Proof/Machine/Strand.lean ====
section
/-! DEFINITION. The strand engine of a core: contexts, dispatch and issue checks (R198, R199, R218), rings
and time-to-dry (R209 to R212), issue by deadline (R200, R213, R217), gather, scatter and scatter-add
(R222 to R225), the braid and the compressor tile by tile (R239, R243, R244, R221), halts (R226, R227). -/

namespace Sys2Proof.Machine

/-! ## Contexts -/

/-- Context n of core c. -/
def State.ctx (s : State) (c n : Nat) : Ctx := aget {} n (s.core c).ctx
/-- The state with a context replaced. -/
def State.setCtx (s : State) (c n : Nat) (k : Ctx) : State :=
  s.setCore c { s.core c with ctx := aset n k (s.core c).ctx }
/-- The record of a context. -/
def Ctx.srec (k : Ctx) : SRec := SRec.of k.record k.shape
/-- The issuer of a context. -/
def Ctx.who (k : Ctx) (c n : Nat) : Issuer := .strand c n k.tag
/-- Waiter number of a context (R182). -/
def ctxWaiter (n : Nat) : Nat := 8 + n

/-- An event of a context with detail TAG. -/
def strandEvent (c n code pos : Nat) (s : State) : State :=
  raiseEv (.core c) code (detTag (s.ctx c n).tag 3 n pos) s

/-- DONE of a port rises. -/
def Port.finish (p : Port) (k : Nat) : Port := { p with done := (p.done + k) % 2 ^ 64 }

/-- Records of so many entries each leave a command coil: READ advances, and BELAY and RELEASE with it, so that the
producer has the room at once (R175, R248; DESIGN CHOICE, log entry 68). -/
def Port.take (p : Port) (entries k : Nat) : Port :=
  { p with coil := p.coil.drop k, read := (p.read + entries * min k p.coil.length) % 32 }

/-- The braid is free of a context. -/
def dropBraid (c n : Nat) (s : State) : State :=
  let r := s.core c
  if r.braid = some n then s.setCore c { r with braid := none } else s

/-- A context is freed and its record counts in DONE (R199). -/
def freeCtx (c n : Nat) (s : State) : State :=
  let s := dropWait c (ctxWaiter n) (dropBraid c n s)
  let s := s.setCtx c n { tag := (s.ctx c n).tag, nextJob := (s.ctx c n).nextJob }
  let r := s.core c
  recordBoundary c (s.setCore c { r with sx := r.sx.finish 1 })

/-- Does a context have accesses of its own outstanding? -/
def Ctx.busy (k : Ctx) : Bool := !k.jobs.isEmpty

/-! ## Time (R211) -/

/-- The fill of the ring. -/
def Ctx.fill (k : Ctx) : Nat := ((k.landed : Int) - k.released).toNat

/-- t_dry of a deadline strand. -/
def Ctx.tdry (k : Ctx) : Int := k.tref + (k.fill : Int) * (k.srec.period : Int)

/-- The t_dry that a request carries; none when bulk. -/
def Ctx.dry (k : Ctx) : Option Int := if k.srec.period = 0 then none else some k.tdry

/-- Does the block of a position have room in the ring (R210)? -/
def Ctx.room (k : Ctx) (p : Nat) : Bool :=
  let r := k.srec
  !r.relEn || decide (k.released ≥ ((p / r.q + 1 : Nat) : Int) - r.slots)

/-! ## Halts (R226) -/

/-- The place of an element under the braid (R237). -/
def braidPlace (s : State) (r : SRec) (p : Nat) : Place :=
  let (b, i3, i2, i1, i0) := coords r p
  let g := r.unit
  placeOf s r.dst (b % r.slots * r.dstB + i3 * r.ds3 + i2 * r.ds2 + i0 / g * r.ds1 + elemByte r.dstFmt (i1 * g + i0 % g))

/-- Bytes of memory of this device become free values; `keepLow` leaves the low nibble of the first, which holds an
element that comes before. -/
def scrambleAt (d : Place) (n : Nat) (keepLow : Bool) (s : State) : State :=
  match d.dev with
  | some _ => s
  | none => if !memMapped s d.addr n then s
    else
      let x := s.draw (8 * n)
      let v := if keepLow then x.1 / 16 * 16 + leNat (x.2.peek d.addr 1) % 16 else x.1
      memWrite d.addr (leBytes n v) .ordinary x.2

/-- Where an element of a strand goes; none where an index leaves it out. -/
def elemPlace (s : State) (c : Nat) (r : SRec) (p : Nat) : Option Place :=
  if r.braid ≠ 0 then some (braidPlace s r p)
  else if r.op < 2 then some (dstPlace s r p 0)
  else
    let v := sext (leNat (s.peek (sramAddr c (indexOff r p)) r.indexSize)) (8 * r.indexSize)
    if 0 ≤ v ∧ v < r.items then some (dstPlace s r p v.toNat) else none

/-- The destination bytes of elements [lo, hi) become free values: what a halt reported after issue leaves (R226, R244).
(DEDUCED, log entry 28) -/
def scramble (c : Nat) (r : SRec) (lo hi : Nat) (s : State) : State :=
  each ((upto (hi - lo)).map (lo + ·)) (fun p s =>
    match elemPlace s c r p with
    | none => s
    | some d => scrambleAt d (cdiv r.dstFmt.width 8) (r.dstFmt.width == 4 && p % r.e0 % 2 == 1) s) s

/-- The planes of the tile of a compressing strand become free values. -/
def scramblePlanes (r : SRec) (first : Nat) (s : State) : State :=
  let z := planeBytes r.comp
  let off := first % r.e0 / 16 * r.ds1 + first / r.e0 / 16 * r.ds2
  scrambleAt (placeOf s r.codeAddr (off / 4)) (z / 4) false (scrambleAt (placeOf s r.dst off) z false s)

/-- The first position past the blocks that have room: no later element can have been issued. -/
def Ctx.issuable (k : Ctx) : Nat :=
  let r := k.srec
  if r.relEn then min r.total ((k.released + (r.slots : Int)).toNat * r.q) else r.total

/-- The first position that a tile begins at in the element order of its strand. -/
def tileStart (r : SRec) (pos : Nat) : Nat := if r.comp = 0 then pos else pos / r.e0 / 16 * 16 * r.e0 + pos % r.e0 / 16 * 16

/-- The position before which a halt at `pos` may have left bytes undefined: those of requests already issued and, of a
failure reported after issue, `after`, of any that could be (R226). A braided or compressing strand issues the writes of a
tile after its last read (R221, R244). -/
def undefinedTo (k : Ctx) (pos : Nat) (after : Bool) : Nat :=
  let r := k.srec
  if r.braid ≠ 0 || r.comp ≠ 0 then
    match k.tile with
    | some t => if t.runs = 0 then t.first else k.pos
    | none => k.pos
  else if after then max k.pos k.issuable else max k.pos pos

/-- A context halts at a position: the earliest one stands. -/
def haltStrand (c n pos cause addr : Nat) (s : State) (after : Bool := false) : State :=
  let k := s.ctx c n
  if k.state = 4 && decide (k.pos ≤ pos) then s
  else
    let hi := undefinedTo k pos after
    let s := if k.srec.comp ≠ 0 then (if pos < hi then scramblePlanes k.srec (tileStart k.srec pos) s else s)
      else scramble c k.srec pos hi s
    let s := dropBraid c n s
    s.setCtx c n { k with
      state := 4, cause := cause, addr := addr % 2 ^ 52, pos := pos, tile := none
      t0 := if k.state = 4 then k.t0 else s.now
      pausedAt := if k.state = 3 || k.state = 4 then k.pausedAt else s.now
      jobs := k.jobs.filter fun j => decide (j.pos < pos) }

/-- A halt with its event of format ADDR. -/
def haltAddr (c n pos cause : Nat) (hall evAddr : Nat) (s : State) : State :=
  let w := (s.ctx c n).who c n
  raiseEv (issuerPage w) cause (detAddr (localOf evAddr) (evAddr / 0x10000000000) w)
    (haltStrand c n pos cause hall s)

/-! ## Take (R198, R218) -/

/-- The lowest free context. -/
def freeContext (s : State) (c : Nat) : Option Nat := (upto 8).find? fun n => (s.ctx c n).state == 0

/-- A record is rejected: its event, DONE, no signal. -/
def rejectStrand (c n code : Nat) (s : State) : State :=
  freeCtx c n (strandEvent c n code 0 s)

/-- The head record takes context n. -/
def takeStrand (c n : Nat) (w : List Word) (s : State) : State :=
  let s := recordBoundary c s
  let x := s.core c
  let s := s.setCore c { x with sx := x.sx.take 1 1 }
  let tag := wordBits w 0 63 48
  let off := wordBits w 3 17 0
  let s := s.setCtx c n { state := 1, record := w, tag := tag, t0 := s.now, nextJob := (s.ctx c n).nextJob }
  if off % 64 ≠ 0 then rejectStrand c n evStrandAlign s
  else
    let (img, s) := if off + 128 ≤ 0x40000 then sramRead c off 128 s
      else (.ok (List.replicate 128 0#8), s)
    match img with
    | .error o => freeCtx c n (sramUncorr c o (.strand c n tag) s)
    | .ok bs =>
      let sh := (chunks 7 16 bs).map fun b => word (leNat b)
      let r := SRec.of w sh
      match strandCheck s c r w sh with
      | some code => rejectStrand c n code s
      | none =>
        let s := s.setCtx c n { s.ctx c n with shape := sh }
        if r.waitEn then registerWait c (ctxWaiter n) (.strand c n tag) r.waitAddr r.waitValue s else s

/-! ## Start and release (R205, R210, R211) -/

/-- Reads a sync word of this device as an engine: its value, an error, or nothing while it is held. -/
def engineWord (who : Issuer) (hall : Nat) (s : State) : Option (Except Nat Int) :=
  let q : Req := ⟨who, localOf hall, .none, devOf hall⟩
  match barrier s q (.sync .read) with
  | .refused code _ => some (.error code)
  | .held _ => none
  | .clear => match homeOf s q.addr with
    | .sync key =>
      match memRead q key 8 .ordinary s with
      | (some bs, _) => some (.ok (sext (leNat bs) 64))
      | (none, _) => some (.error (lostData key))
    | _ => some (.error evAddrUnmapped)

/-- A context leaves for a ring wait where the block of its next position lacks room. -/
def ringCheck (c n : Nat) (s : State) : State :=
  let k := s.ctx c n
  let r := k.srec
  if k.state = 2 && k.tile.isNone && decide (k.pos < r.total) && !k.room k.pos then
    let s := s.setCtx c n { k with state := 3, t0 := s.now, pausedAt := s.now, late := false }
    registerWait c (ctxWaiter n) (k.who c n) r.relAddr
      (k.r0 + ((k.pos / r.q + 1 : Nat) : Int) - r.slots) s
  else s

/-- Has a wait or ring wait of a context outlasted ENGINE_WAIT (R183, R210)? -/
def strandWaitOverdue (s : State) (c n : Nat) : Bool :=
  let k := s.ctx c n
  ((k.state == 1 && k.srec.waitEn) || k.state == 3) && !k.late && waitOverdue c (ctxWaiter n) k.t0 s

/-- SYNC_WAIT_TIMEOUT of a wait that turns out late (R183). -/
def lateWait (c n : Nat) (s : State) : State :=
  let k := s.ctx c n
  if strandWaitOverdue s c n then strandEvent c n evSyncWaitTimeout k.pos (s.setCtx c n { k with late := true }) else s

/-- The strand runs from its start tick, which is a work-record boundary (R396). -/
def beginStrand (c n : Nat) (r0 : Int) (s : State) : State :=
  let s := recordBoundary c s
  let k := s.ctx c n
  let r := k.srec
  let s := s.setCtx c n { k with
    state := 2, started := true, r0 := r0, tref := (s.now : Int) + r.period, stallAt := s.now
    late := false, pos := if strandNoop s r then r.total else 0 }
  dropWait c (ctxWaiter n) s

/-- The wait condition of a context holds or has failed (R89, R26). -/
def startStrand (c n : Nat) (s : State) : State :=
  let k := s.ctx c n
  let r := k.srec
  let w := k.who c n
  let wait := if r.waitEn then waitState c (ctxWaiter n) w r.waitAddr r.waitValue s else .holds
  match wait with
  | .notYet => s
  | .failed code =>
    waitEvent w r.waitAddr code (haltStrand c n 0 code r.waitAddr (dropWait c (ctxWaiter n) s))
  | .holds =>
    if !r.relEn then beginStrand c n 0 (lateWait c n s)
    else match engineWord w r.relAddr s with
      | none => s
      | some (.error code) =>
        waitEvent w r.relAddr code (haltStrand c n 0 code r.relAddr (dropWait c (ctxWaiter n) (lateWait c n s)))
      | some (.ok v) => beginStrand c n v (lateWait c n s)

/-- Is the start of context n due: its wait, and the read of its release word, are settled? -/
def startDue (s : State) (c n : Nat) : Bool :=
  let k := s.ctx c n
  let r := k.srec
  k.state == 1
    && (!r.waitEn || waitState c (ctxWaiter n) (k.who c n) r.waitAddr r.waitValue s != .notYet)
    && (!r.relEn || (engineWord (k.who c n) r.relAddr s).isSome)

/-- The context reads its release word as it stands (R210, R211). -/
def observeRelease (c n : Nat) (s : State) : State :=
  let k := s.ctx c n
  let r := k.srec
  match engineWord (k.who c n) r.relAddr s with
  | none => s
  | some (.error code) =>
    if k.state = 3 then
      waitEvent (k.who c n) r.relAddr code
        (haltStrand c n k.pos code r.relAddr (dropWait c (ctxWaiter n) s))
    else s
  | some (.ok v) =>
    let rel := v - k.r0
    let k2 := { k with released := rel, tref := if rel > k.released then (s.now : Int) else k.tref }
    if k.state = 3 && k2.room k2.pos then
      let s := lateWait c n s
      let k3 := { k2 with state := 2, late := (s.ctx c n).late, stallAt := k2.stallAt + (s.now - k2.pausedAt) }
      dropWait c (ctxWaiter n) (s.setCtx c n k3)
    else s.setCtx c n k2

/-! ## Requests -/

/-- The absent page that stops a strand's access of n bytes at a place: its base (R228). -/
def strandAbsent (s : State) (p : Place) (n : Nat) : Option Nat :=
  let pages := [p.addr / 0x200000, (p.addr + n - 1) / 0x200000].eraseDups
  let gone := pages.find? fun g => match p.dev with
    | none => decide (p.addr < 0xC000000000) && s.pres.absent.contains g
    | some d => s.pres.remote.contains (d * 0x80000 + g)
  gone.map fun g => g * 0x200000

/-- What a strand's access meets before it is issued. -/
inductive Before where
  | go
  | halt (cause hall evAddr : Nat)
  | blocked (g : Gate)
deriving DecidableEq, Repr

/-- Presence, mapping, protection and holds before an access (R226, R228). -/
def beforeAccess (s : State) (w : Issuer) (p : Place) (n : Nat) (write : Bool) : Before :=
  match strandAbsent s p n with
  | some b =>
    let hall := (p.dev.getD s.deviceId) * 0x10000000000 + b
    .halt evStrandPage hall hall
  | none => match p.dev with
    | some _ => .go
    | none =>
      let acc : Acc := if write then .store (List.replicate n 0#8) else .load n false
      match barrier s ⟨w, p.addr, .none, 0xFFF⟩ acc with
      | .refused code a => .halt code (p.hall s) (0xFFF * 0x10000000000 + a)
      | .held g => .blocked g
      | .clear => .go

/-- The access class of a source hint. -/
def srcClass (r : SRec) : MemClass := if r.srcHint = 1 then .keep else if r.srcHint = 2 then .last else .stream
/-- The access class of a destination hint. -/
def dstClass (r : SRec) : MemClass := if r.dstHint = 1 then .keep else .stream

/-- Reads n bytes at a place of this device: the data, or the cause of a halt, with its event raised, and the address of
the access: of poison that of the sector (R272). -/
def strandFetch (w : Issuer) (cls : MemClass) (a n : Nat) (s : State) :
    Except (Nat × Nat) (List Byte) × State :=
  match homeOf s a with
  | .sram d _ =>
    match sramRead d (a - sramAddr d 0) n s with
    | (.ok bs, s) => (.ok bs, s)
    | (.error o, s) => (.error (evSramUncorr, a), sramUncorr d o w s)
  | _ =>
    let ((bs, bad), s) := hbmRead a n cls s
    match bad with
    | none => (.ok bs, s)
    | some o => (.error (evHbmPoison, a / 0x1000000000 * 0x1000000000 + o),
        poisoned (a / 0x1000000000) o ⟨w, a, .none, 0xFFF⟩ s)

/-- The hall address of a local address of this device. -/
def ownHall (s : State) (a : Nat) : Nat := s.deviceId * 0x10000000000 + a % 0x10000000000

/-- A number for a request of the context. -/
def newJob (c n : Nat) (s : State) : Nat × State :=
  let k := s.ctx c n
  (k.nextJob, s.setCtx c n { k with nextJob := k.nextJob + 1 })

/-- A write of the strand is acknowledged: the stall interval restarts (R231). -/
def strandAcked (c n : Nat) (s : State) : State :=
  let k := s.ctx c n
  s.setCtx c n { k with stallAt := s.now, pausedAt := s.now }

/-- One write request: acknowledged now, or a job until it is. -/
def strandWrite (c n : Nat) (r : SRec) (p : Place) (bs : List Byte) (pos cnt : Nat) (s : State) : State :=
  let (id, s) := newJob c n s
  let k := s.ctx c n
  let hall := match p.dev with
    | none => 0xFFF * 0x10000000000 + p.addr % 0x10000000000
    | some d => d * 0x10000000000 + p.addr % 0x10000000000
  let (res, s) := engineAccess (k.who c n) hall (.store bs) (dstClass r) k.dry (.ack (.strand c n id)) s
  match res with
  | some (.err code) => haltStrand c n pos code hall s
  | _ =>
    if res.isNone || s.owes (fun o => o == .strand c n id) then
      s.setCtx c n { s.ctx c n with jobs := (s.ctx c n).jobs ++ [⟨id, pos, cnt, pos / r.q, false, 0, p.hall s, []⟩] }
    else strandAcked c n s

/-- A read whose data comes later, from another device or from behind a hold: it keeps the t_dry of its generation
(R213, R215). `vals` are added to what it reads (R225). -/
def strandAsk (c n : Nat) (r : SRec) (p : Place) (cls : MemClass) (bytes pos cnt idx : Nat) (vals : List Nat) (s : State) :
    State :=
  let (id, s) := newJob c n s
  let k := s.ctx c n
  let s := s.setCtx c n { k with jobs := k.jobs ++ [⟨id, pos, cnt, pos / r.q, true, idx, p.hall s, vals⟩] }
  answerOpt ⟨k.who c n, p.addr, .strandData c n id, 0xFFF⟩
    (engineAccess (k.who c n) (p.hall s) (.load bytes false) cls k.dry (.strandData c n id) s)

/-! ## Writing converted elements -/

/-- Elements from a position on, in pieces of one destination line each: position and elements. -/
def destPieces (r : SRec) (addrOf : Nat → Nat) : Nat → Nat → Nat → List (Nat × Nat)
  | 0, _, _ => []
  | fuel + 1, p, n =>
    if n = 0 then []
    else
      let m := min n (inLine r.dstFmt (addrOf p))
      (p, m) :: destPieces r addrOf fuel (p + m) (n - m)

/-- One FP32 or S32 addition of a scatter-add: the result, and whether S32 overflowed (R225). -/
def scatterSum (f : Fmt) (a b : Nat) : Nat × Bool :=
  if f = .fp32 then (f32Add a b, false)
  else
    let v := sext a 32 + sext b 32
    (toBits v 32, decide (v < -2147483648) || decide (v > 2147483647))

/-- A scatter-add adds values to what it has read and writes the sums (R225). -/
def addSums (c n : Nat) (r : SRec) (d : Place) (pos : Nat) (vals : List Nat) (bs : List Byte) (s : State) : State :=
  let old := elemsOf r.dstFmt bs false vals.length
  let sums := (old.zip vals).map fun x => scatterSum r.dstFmt x.1 x.2
  let s := match (upto sums.length).find? (fun i => (nth (0, false) sums i).2) with
    | none => s
    | some i =>
      let k := s.ctx c n
      if k.addOvf then s
      else strandEvent c n evStrandAddOvf (pos + i) (s.setCtx c n { k with addOvf := true })
  strandWrite c n r d (bytesOf r.dstFmt (sums.map (·.1))) pos vals.length s

/-- One piece of a scatter-add: read, added, written; a read that is held goes on when its data comes. An error of the
read halts. -/
def addPiece (c n : Nat) (r : SRec) (d : Place) (pos : Nat) (vals : List Nat) (held : Bool) (s : State) : State :=
  let bytes := r.dstFmt.bytes vals.length
  if held then strandAsk c n r d (dstClass r) bytes pos vals.length 0 vals s
  else match strandFetch ((s.ctx c n).who c n) (dstClass r) d.addr bytes s with
    | (.error (code, a), s) => haltStrand c n pos code (ownHall s a) s true
    | (.ok bs, s) => addSums c n r d pos vals bs s

/-- Writes elements from a position on. Where a piece is stopped before its issue the strand halts there; a hold keeps
the request that meets it (R215). -/
def putPieces (c n : Nat) (r : SRec) (idx : Nat) : List (Nat × Nat) → List Nat → State → Option Nat × State
  | [], _, s => (none, s)
  | (pos, m) :: rest, vals, s =>
    let d := dstPlace s r pos idx
    match beforeAccess s ((s.ctx c n).who c n) d (r.dstFmt.bytes m) true with
    | .halt cause hall ev => (some pos, haltAddr c n pos cause hall ev s)
    | b =>
      let mine := vals.take m
      let s := if r.op = 3 then addPiece c n r d pos mine (b != .go) s
        else strandWrite c n r d (bytesOf r.dstFmt mine) pos m s
      if (s.ctx c n).state = 4 && decide ((s.ctx c n).pos ≤ pos) then (some pos, s)
      else putPieces c n r idx rest (vals.drop m) s

/-- Converts and writes the elements of one request: those before a halt are counted (R61, R208). True unless the strand
halted in it. -/
def putElems (c n : Nat) (r : SRec) (pos idx : Nat) (raw : List Nat) (s : State) : Bool × State :=
  let ps := destPieces r (fun p => (dstPlace s r p idx).addr) raw.length pos raw.length
  let (vals, counted) := convAll r pos raw
  match putPieces c n r idx ps vals s with
  | (none, s) => (true, saturate c counted s)
  | (some p, s) => (false, saturate c (convAll r pos (raw.take (p - pos))).2 s)

/-! ## Issue without a tile -/

/-- The index of a position's item: in range, out of range, or the word that could not be read (R222,
R223). -/
inductive Index where
  | none
  | ok (i : Nat)
  | out (off : Nat)
  | bad (off : Nat)
deriving DecidableEq, Repr

/-- Reads the index of a position. -/
def readIndex (c : Nat) (r : SRec) (pos : Nat) (s : State) : Index × State :=
  if r.op = 0 then (.none, s)
  else
    let off := indexOff r pos
    match sramRead c off r.indexSize s with
    | (.error o, s) => (.bad o, s)
    | (.ok bs, s) =>
      let v := sext (leNat bs) (8 * r.indexSize)
      (if 0 ≤ v ∧ v < r.items then .ok v.toNat else .out off, s)

/-- The context's next position moves on. -/
def moveTo (c n p : Nat) (s : State) : State := s.setCtx c n { s.ctx c n with pos := p }

/-- The rest of a row is skipped or filled with zeros (R223). -/
def issueOutside (c n : Nat) (r : SRec) (pos : Nat) (s : State) : State :=
  let left := r.e0 - pos % r.e0
  if 2 ≤ r.op then ringCheck c n (moveTo c n (pos + left) s)
  else
    let m := min left (inLine r.dstFmt (dstPlace s r pos 0).addr)
    match putPieces c n r 0 [(pos, m)] (List.replicate m 0) s with
    | (none, s) => ringCheck c n (moveTo c n (pos + m) s)
    | (some _, s) => s

/-- A request of a strand: read, converted and written, or left to its answer. -/
def issueLocal (c n : Nat) (r : SRec) (pos idx : Nat) (src : Place) (s : State) : State :=
  let cnt := requestLen r pos src.addr
  let w := (s.ctx c n).who c n
  let odd := r.srcFmt.width == 4 && pos % r.e0 % 2 == 1
  let bytes := if r.srcFmt.width = 4 then cdiv (cnt + b2n odd) 2 else r.srcFmt.bytes cnt
  match beforeAccess s w src bytes false with
  | .halt cause hall ev => haltAddr c n pos cause hall ev s
  | b =>
    if b != .go || src.dev.isSome then
      ringCheck c n (moveTo c n (pos + cnt) (strandAsk c n r src (srcClass r) bytes pos cnt idx [] s))
    else match strandFetch w (srcClass r) src.addr bytes s with
      | (.error (code, a), s) => haltStrand c n pos code (ownHall s a) s true
      | (.ok bs, s) =>
        match putElems c n r pos idx (elemsOf r.srcFmt bs odd cnt) s with
        | (true, s) => ringCheck c n (moveTo c n (pos + cnt) s)
        | (false, s) => s

/-- The hall address of an offset of the core's own SRAM. -/
def ownSram (s : State) (c off : Nat) : Nat := s.deviceId * 0x10000000000 + sramAddr c off

/-- One issue of a plain, gathering or scattering strand. -/
def issuePlain (c n : Nat) (s : State) : State :=
  let k := s.ctx c n
  let r := k.srec
  match readIndex c r k.pos s with
  | (.bad o, s) =>
    sramUncorr c o (k.who c n) (haltStrand c n k.pos evSramUncorr (ownSram s c o) s true)
  | (.out off, s) =>
    if r.zero then issueOutside c n r k.pos s
    else haltAddr c n k.pos evStrandIndex (ownSram s c off) (ownSram s c off) s
  | (.ok i, s) => issueLocal c n r k.pos i (srcPlace s r k.pos i) s
  | (.none, s) => issueLocal c n r k.pos 0 (srcPlace s r k.pos 0) s

/-! ## Tiles (R221, R239) -/

/-- Tile indexes (o, r) of a compressing strand from the tile's first position. -/
def tileIndex (r : SRec) (first : Nat) : Nat × Nat := (first % r.e0 / 16, first / r.e0 / 16)

/-- Rows of the tile that begins at a position. -/
def tileRows (r : SRec) (first : Nat) : Nat :=
  if r.comp ≠ 0 then min 16 (r.e1 - first / r.e0) else min 64 (r.e1 - first / r.e0 % r.e1)

/-- Elements of a row of the tile. -/
def tileCols (r : SRec) (first : Nat) : Nat := if r.comp ≠ 0 then min 16 (r.e0 - first % r.e0) else r.e0

/-- The position of element i of the tile, in element order of the tile. -/
def tilePos (r : SRec) (first i : Nat) : Nat :=
  first + i / tileCols r first * r.e0 + i % tileCols r first

/-- Elements of the tile. -/
def tileSize (r : SRec) (first : Nat) : Nat := tileRows r first * tileCols r first

/-- The first position after a tile. -/
def tileEnd (r : SRec) (first : Nat) : Nat :=
  if r.comp = 0 then first + tileSize r first
  else
    let (o, t) := tileIndex r first
    if o + 1 < r.tilesO then first + 16 else if t + 1 < r.tilesR then (16 * (t + 1)) * r.e0 else r.total

/-- The elements of a tile that have arrived join it. -/
def tileGather (c n pos : Nat) (vals : List Nat) (s : State) : State :=
  let k := s.ctx c n
  match k.tile with
  | none => s
  | some t => s.setCtx c n { k with tile := some { t with
      elems := t.elems ++ (upto vals.length).map fun i => (pos + i, nth 0 vals i) } }

/-- Converts the raw elements of a tile's request. -/
def tileTake (c n : Nat) (r : SRec) (pos : Nat) (raw : List Nat) (s : State) : State :=
  let (vals, counted) := convAll r pos raw
  saturate c counted (tileGather c n pos vals s)

/-- The next request of a tile moves on by cnt elements. -/
def tileAdvance (c n cnt : Nat) (s : State) : State :=
  let k := s.ctx c n
  match k.tile with
  | none => s
  | some t =>
    let r := k.srec
    let nx := t.next + cnt
    s.setCtx c n { k with
      tile := some { t with next := nx }
      pos := if nx < tileSize r t.first then tilePos r t.first nx else tileEnd r t.first }

/-- The saved position of a failing read of a tile: a braided strand discards the whole tile (R244), a compressing one
stops at the element that needs the read (R226). -/
def tileFailPos (r : SRec) (first pos : Nat) : Nat := if r.braid ≠ 0 then first else pos

/-- One read request of a tile: up to 64 B of a row (R239). -/
def tileRead (c n : Nat) (t : Tile) (s : State) : State :=
  let k := s.ctx c n
  let r := k.srec
  let w := k.who c n
  let pos := tilePos r t.first t.next
  let at' := tileFailPos r t.first pos
  let go (idx : Nat) (s : State) : State :=
    let src := srcPlace s r pos idx
    let left := tileCols r t.first - t.next % tileCols r t.first
    let cnt := min left (512 / r.srcFmt.width)
    let odd := r.srcFmt.width == 4 && pos % r.e0 % 2 == 1
    let bytes := if r.srcFmt.width = 4 then cdiv (cnt + b2n odd) 2 else r.srcFmt.bytes cnt
    match beforeAccess s w src bytes false with
    | .halt cause hall ev => haltAddr c n at' cause hall ev s
    | b =>
      if b != .go || src.dev.isSome then
        tileAdvance c n cnt (strandAsk c n r src (srcClass r) bytes pos cnt idx [] s)
      else match strandFetch w (srcClass r) src.addr bytes s with
        | (.error (code, a), s) => haltStrand c n at' code (ownHall s a) s true
        | (.ok bs, s) => tileAdvance c n cnt (tileTake c n r pos (elemsOf r.srcFmt bs odd cnt) s)
  match readIndex c r pos s with
  | (.bad o, s) => sramUncorr c o w (haltStrand c n at' evSramUncorr (ownSram s c o) s true)
  | (.out off, s) =>
    if r.zero then tileAdvance c n (tileCols r t.first)
      (tileGather c n pos (List.replicate (tileCols r t.first) 0) s)
    else haltAddr c n at' evStrandIndex (ownSram s c off) (ownSram s c off) s
  | (.ok i, s) => go i s
  | (.none, s) => go 0 s

/-- The runs of a braided tile: destination and bytes of run x (R237, R239, R245). -/
def braidRun (s : State) (r : SRec) (t : Tile) (x : Nat) : Place × List Byte :=
  let (b, i3, i2, i1, _) := coords r t.first
  let g := r.unit
  let rows := tileRows r t.first
  let off := b % r.slots * r.dstB + i3 * r.ds3 + i2 * r.ds2 + x * r.ds1 + elemByte r.dstFmt (i1 * g)
  let vals := (upto rows).flatMap fun i => (upto g).map fun j => aget 0 (t.first + i * r.e0 + x * g + j) t.elems
  (placeOf s r.dst off, bytesOf r.dstFmt vals)

/-- The planes of a compressed tile and where they go (R221). -/
def tilePlanes (s : State) (r : SRec) (first : Nat) (vals codes : List Byte) : List (Place × List Byte) :=
  let (o, t) := tileIndex r first
  let off := o * r.ds1 + t * r.ds2
  [(placeOf s r.dst off, vals), (placeOf s r.codeAddr (off / 4), codes)]

/-- Bytes in consecutive requests of 64 B (R239). -/
def linePiecesOf : Nat → Place → List Byte → List (Place × List Byte)
  | 0, _, _ => []
  | fuel + 1, p, bs =>
    if bs.isEmpty then []
    else
      (p, bs.take 64) :: linePiecesOf fuel { p with addr := p.addr + 64 } (bs.drop 64)

/-- The first check of R244 that a list of writes fails; a hold fails none. -/
def checkWrites (s : State) (w : Issuer) (l : List (Place × List Byte)) : Before :=
  l.foldl (fun b x => match b with
    | .halt .. => b
    | _ => match beforeAccess s w x.1 x.2.length true with
      | .halt cause hall ev => .halt cause hall ev
      | _ => b) .go

/-- Writes the pieces of one run or plane of a tile. -/
def writeRun (c n : Nat) (r : SRec) (pos : Nat) (x : Place × List Byte) (s : State) : State :=
  each (linePiecesOf (x.2.length / 64 + 2) x.1 x.2)
    (fun y s => if (s.ctx c n).state = 4 then s else strandWrite c n r y.1 y.2 pos 0 s) s

/-- The tile is finished: the context goes on with the next. -/
def tileDone (c n : Nat) (s : State) : State :=
  let s := dropBraid c n s
  ringCheck c n (s.setCtx c n { s.ctx c n with tile := none })

/-- CORE_SPARSE_FAULT takes a fault unless it holds one (R116). (DEDUCED, log entry 23) -/
def sparseFault (c n : Nat) (r : SRec) (first : Nat) (e : SparseFault) (s : State) : State :=
  if bit (s.reg (.core c) 0x468) 63 then s
  else
    let (o, t) := tileIndex r first
    s.setReg (.core c) 0x468 (2 ^ 63 + fld e.kind 62 62 + fld n 61 59 + fld t 55 40 + fld o 39 24
      + fld e.g 23 22 + fld e.h 21 20 + fld e.pos 19 18)

/-- A compressor fault halts the strand at the tile's first element (R110, R226). No rule names an access
for it, so the address is a free value. -/
def compressFault (c n : Nat) (r : SRec) (first : Nat) (e : SparseFault) (s : State) : State :=
  let code := if e.kind = 0 then evStrandSparseGroup else evStrandSparseRow
  let (a, s) := s.draw 52
  strandEvent c n code first (sparseFault c n r first e (haltStrand c n first code a s))

/-- One write step of a complete tile: a run of the braid, or both planes of the compressor. A tile's prunings count once
its planes are written, so those of a tile that faults count when it has been corrected. (DESIGN CHOICE, log entry 77) -/
def tileWrite (c n : Nat) (t : Tile) (s : State) : State :=
  let k := s.ctx c n
  let r := k.srec
  let w := k.who c n
  if r.comp ≠ 0 then
    let cols := tileCols r t.first
    let at' (i j : Nat) : Nat := if j < cols then aget 0 (t.first + i * r.e0 + j) t.elems else 0
    match compressTile r.comp (r.srcCode == 10) r.prune at' with
    | .error e => compressFault c n r t.first e s
    | .ok (vals, codes, pruned) =>
      let l := tilePlanes s r t.first vals codes
      match checkWrites s w l with
      | .halt cause hall ev => haltAddr c n t.first cause hall ev s
      | _ =>
        let s := each l (writeRun c n r t.first) s
        let x := s.core c
        tileDone c n (s.setCore c { x with pruned := (x.pruned + pruned) % 2 ^ 64 })
  else
    let runs := r.e0 / r.unit
    let all := (upto runs).map (braidRun s r t)
    match checkWrites s w (if t.runs = 0 then all else (all.drop t.runs).take 1) with
    | .halt cause hall ev => haltAddr c n t.first cause hall ev s
    | _ =>
      let s := s.setCtx c n { s.ctx c n with tile := some { t with runs := t.runs + 1 } }
      let s := writeRun c n r t.first (nth (⟨none, 0⟩, []) all t.runs) s
      if t.runs + 1 = runs && (s.ctx c n).state = 2 then tileDone c n s else s

/-- One issue of a tiled strand. -/
def issueTile (c n : Nat) (s : State) : State :=
  let k := s.ctx c n
  let r := k.srec
  let t := k.tile.getD { first := tileStart r k.pos }
  let s := s.setCtx c n { k with tile := some t }
  if t.next < tileSize r t.first then tileRead c n t s else tileWrite c n t s

/-! ## Choice among contexts (R213, R217) -/

/-- May the context issue now, holds apart? -/
def mayIssue (s : State) (c n : Nat) : Bool :=
  let k := s.ctx c n
  let r := k.srec
  let duty := if r.period = 0 then s.gov.bulkDuty else s.gov.dlDuty
  k.state == 2 && duty != 0
    && match k.tile with
      | some t =>
        (r.braid == 0 || (s.core c).braid == some n)
          && (decide (t.next < tileSize r t.first) || !k.jobs.any (·.read))
      | none => decide (k.pos < r.total) && (r.braid == 0 || (s.core c).braid == some n)
        && !(decide (2 ≤ r.op) && k.busy) && !(r.comp != 0 && k.busy)

/-- The order of R213 between two contexts: deadline before bulk, then t_dry by the signed difference of
the low 32 bits, then the index from the pointer on. -/
def issuesFirst (s : State) (c a b : Nat) : Bool :=
  let p := (s.core c).ctxPtr
  let tie := decide ((a + 8 - p % 8) % 8 ≤ (b + 8 - p % 8) % 8)
  if dryBefore (s.ctx c a).dry (s.ctx c b).dry then true
  else if dryBefore (s.ctx c b).dry (s.ctx c a).dry then false else tie

/-- Running contexts that may issue, in the order of the engine's arbiter. -/
def issueOrder (s : State) (c : Nat) : List Nat :=
  sortBy (issuesFirst s c) ((upto 8).filter (mayIssue s c))

/-- Issues for the first context of a list; a request that a hold stops keeps its t_dry there (R213, R215). -/
def issueFirst (c : Nat) (l : List Nat) (s : State) : State :=
  match l with
  | [] => s
  | n :: _ =>
    let r := (s.ctx c n).srec
    let t := if r.braid ≠ 0 || r.comp ≠ 0 then issueTile c n s else issuePlain c n s
    t.setCore c { t.core c with ctxPtr := (n + 1) % 8 }

/-- Braided contexts that wait for the braid at a tile boundary. -/
def braidWaiters (s : State) (c : Nat) : List Nat :=
  sortBy (issuesFirst s c) ((upto 8).filter fun n =>
    let k := s.ctx c n
    let r := k.srec
    k.state == 2 && r.braid != 0 && decide (k.pos < r.total) && k.tile.isNone)

/-- The braid is given to a context for its next tile (R243). -/
def giveBraid (c : Nat) (s : State) : State :=
  match braidWaiters s c with
  | [] => s
  | n :: _ =>
    let k := s.ctx c n
    let s := s.setCore c { s.core c with braid := some n }
    s.setCtx c n { k with tile := some { first := k.pos } }

/-! ## Answers -/

/-- A write of a request is acknowledged; the request ends when no copy of it is outstanding. -/
def strandAnswered (c n id : Nat) (res : Resp) (s : State) : State :=
  let k := s.ctx c n
  match k.jobs.find? (fun j => j.id == id) with
  | none => s
  | some j =>
    match res with
    | .ok _ =>
      if s.owes (fun o => o == .strand c n id) then s
      else strandAcked c n (s.setCtx c n { k with jobs := k.jobs.filter fun x => x.id != id })
    | .err code => haltStrand c n j.pos code j.hall (s.setCtx c n { k with jobs := k.jobs.filter fun x => x.id != id }) true

/-- The address with which a read that came back with an error halts: of poison of this device that of the sector
(R226, R272). -/
def failedHall (s : State) (j : Job) (code bytes : Nat) : Nat :=
  if code = evHbmPoison ∧ (remoteOf s j.hall).isNone then
    match hbmBadSector s (localOf j.hall) bytes with
    | some a => ownHall s a
    | none => j.hall
  else j.hall

/-- The data of a read arrives, from another device or from behind a hold: it is converted and written, joins its tile, or
is what a scatter-add adds to. -/
def strandDataArrives (c n id : Nat) (res : Resp) (s : State) : State :=
  let k := s.ctx c n
  let r := k.srec
  match k.jobs.find? (fun j => j.id == id) with
  | none => s
  | some j =>
    let s := s.setCtx c n { k with jobs := k.jobs.filter fun x => x.id != id }
    let tiled := r.braid ≠ 0 || r.comp ≠ 0
    let first := (k.tile.map (·.first)).getD j.pos
    match res with
    | .err code =>
      let hall := failedHall s j code (if j.vals.isEmpty then r.srcFmt.bytes j.n else r.dstFmt.bytes j.n)
      haltStrand c n (if tiled then tileFailPos r first j.pos else j.pos) code hall s true
    | .ok bs =>
      let odd := r.srcFmt.width == 4 && j.pos % r.e0 % 2 == 1
      let raw := elemsOf r.srcFmt bs odd j.n
      if !j.vals.isEmpty then addSums c n r ⟨none, localOf j.hall⟩ j.pos j.vals bs s
      else if tiled then tileTake c n r j.pos raw s
      else (putElems c n r j.pos j.idx raw s).2

/-! ## Blocks, completion, commands -/

/-- Has the next block landed: every element issued, every write acknowledged (R211)? -/
def blockLanded (s : State) (c n : Nat) : Bool :=
  let k := s.ctx c n
  let r := k.srec
  (k.state == 2 || k.state == 3 || k.state == 4) && k.started && decide (k.landed < r.nb)
    && decide ((k.landed + 1) * r.q ≤ k.pos) && !k.jobs.any (fun j => j.block == k.landed)
    && match k.tile with
      | some t => decide (k.landed < t.first / r.q)
      | none => true

/-- A block lands: late or not, then the fill and its signal (R205, R211, R212). -/
def landBlock (c n : Nat) (s : State) : State :=
  let k := s.ctx c n
  let r := k.srec
  let late := r.period != 0 && decide ((s.now : Int) ≥ k.tdry)
  let s := if late then s.setCore c { s.core c with late := ((s.core c).late + 1) % 2 ^ 64 } else s
  let s := if late && !k.lateBlock then strandEvent c n evStrandLate k.pos s else s
  let s := s.setCtx c n { k with landed := k.landed + 1, lateBlock := k.lateBlock || late }
  if r.sigEn && r.sigEach then sendSignal (k.who c n) r.sigAddr r.sigAdd s else s

/-- Every block has landed: the completion signal, DONE, the context free (R199). -/
def completeStrand (c n : Nat) (s : State) : State :=
  let k := s.ctx c n
  let r := k.srec
  let s := if r.sigEn && !r.sigEach then sendSignal (k.who c n) r.sigAddr r.sigAdd s else s
  freeCtx c n s

/-- STRAND.RESUME of a halted context (R227). One that never started waits on its condition again. -/
def resumeStrand (c n : Nat) (s : State) : State :=
  let k := s.ctx c n
  let r := k.srec
  if k.state ≠ 4 then s
  else if !k.started then
    let s := s.setCtx c n { k with state := 1, cause := 0, t0 := s.now, late := false }
    if r.waitEn then registerWait c (ctxWaiter n) (k.who c n) r.waitAddr r.waitValue s else s
  else
    ringCheck c n (s.setCtx c n { k with
      state := 2, cause := 0, tile := none, stallAt := k.stallAt + (s.now - k.pausedAt) })

/-- CANCEL of an occupied context (R227). -/
def cancelStrand (c n : Nat) (s : State) : State := if (s.ctx c n).state = 0 then s else freeCtx c n s

/-- Restart of the strand port: every halted context is cancelled (R201). -/
def restartStrands (c : Nat) (s : State) : State :=
  each ((upto 8).filter fun n => (s.ctx c n).state == 4) (fun n s => cancelStrand c n s) s

/-- Flush of the strand port (R201). -/
def flushStrands (c : Nat) (s : State) : State :=
  let r := s.core c
  let s := s.setCore c { r with sx := (r.sx.finish r.sx.coil.length).take 1 r.sx.coil.length }
  each ((upto 8).filter fun n => (s.ctx c n).state == 1) (fun n s => cancelStrand c n s) s

/-- Has the stall watchdog of a context run out (R231)? -/
def strandStalled (s : State) (c n : Nat) : Bool :=
  let k := s.ctx c n
  let lim := s.field (.core c) 0x4C0 63 32
  k.state == 2 && k.started && lim != 0 && s.past k.stallAt lim

/-- Every strand of the chip that is halted on an absent page resumes (R229); a polder that is not ACTIVE wakes for it, as
for any command that reaches it (R423; DEDUCED, log entry 55). -/
def resumePage (dev : Option Nat) (page : Nat) (s : State) : State :=
  each s.cores (fun r s => each (upto 8) (fun n s =>
    let k := s.ctx r.1 n
    if k.state = 4 ∧ k.cause = evStrandPage ∧ remoteOf s k.addr = dev ∧ localOf k.addr / 0x200000 = page then
      resumeStrand r.1 n (markWake (polderOf r.1) 4 s)
    else s) s) s

/-- CHIP_PRES_CMD (R229, R234): a reserved field or OP, a page outside usable HBM and a full remote table
leave the command ignored, with its error counted. -/
def presenceCmd (v : Nat) (s : State) : State :=
  let op := bits v 63 62
  let page := bits v 39 21
  let dev := bits v 59 48
  let key := dev * 0x80000 + page
  let ignored (e : Nat) (s : State) : State :=
    { s with pres := { s.pres with errors := min 0xFFFF (s.pres.errors + 1), lastErr := e } }
  let remote := bit v 60
  if (op ≠ 1 ∧ op ≠ 2) ∨ bits v 47 40 ≠ 0 ∨ bits v 20 0 ≠ 0 then ignored 3 s
  else if !inHbm (page * 0x200000) then ignored 1 s
  else if op = 1 then
    let s := if remote then { s with pres := { s.pres with remote := s.pres.remote.filter (· != key) } }
      else { s with pres := { s.pres with absent := s.pres.absent.filter (· != page) } }
    if bit v 61 then resumePage (if remote then some dev else none) page s else s
  else if remote then
    if s.pres.remote.contains key then s
    else if s.pres.remote.length ≥ 1024 then ignored 2 s
    else { s with pres := { s.pres with remote := s.pres.remote ++ [key] } }
  else if s.pres.absent.contains page then s
  else { s with pres := { s.pres with absent := s.pres.absent ++ [page] } }

/-- CHIP_PRES_STATUS (R234). -/
def presValue (s : State) (off : Nat) : Nat :=
  if off = 0x108 then fld s.pres.errors 47 32 + fld s.pres.remote.length 26 16 + s.pres.lastErr else 0

end Sys2Proof.Machine
end

