-- ==== Sys2Proof/Machine/Matrix.lean ====
section
/-! DEFINITION. The matrix engine: work records and issue checks (R87, R90, R93, R94), tile sets (R65 to
R73, R98 to R106), activation feed (R75), passes and tallies (R50, R74, R78), side lists (R53 to R55, R84),
the drain (R56, R79, R80), limb mode (R51, R52, R82), side records (R85, R86), faults (R91). -/

namespace Sys2Proof.Machine

/-- A matrix work record as fields (R93). -/
structure MRec where
  type_ : Nat
  mode : Nat
  pair : Nat
  sparse : Nat
  outFmt : Nat
  sideList : Bool
  waitEn : Bool
  sigEn : Bool
  tallyIn : Bool
  tallyOut : Bool
  m : Nat
  nSets : Nat
  kTiles : Nat
  aOff : Nat
  aeOff : Nat
  wOff : Nat
  weOff : Nat
  codeOff : Nat
  slOff : Nat
  os : Nat
  rs : Nat
  outOff : Nat
  outStride : Nat
  tag : Nat
  waitAddr : Nat
  waitValue : Int
  sigAddr : Nat
  sigAdd : Nat
deriving DecidableEq, Repr

/-- The fields of a record. -/
def MRec.of (w : List Word) : MRec :=
  let r := wordBits w
  { type_ := r 0 3 0, mode := r 0 5 4, pair := r 0 9 6, sparse := r 0 11 10, outFmt := r 0 13 12
    sideList := r 0 14 14 == 1, waitEn := r 0 15 15 == 1, sigEn := r 0 16 16 == 1
    tallyIn := r 0 17 17 == 1, tallyOut := r 0 18 18 == 1
    m := r 0 33 20, nSets := r 0 47 34, kTiles := r 0 63 48
    aOff := r 1 17 0, aeOff := r 1 35 18, wOff := r 1 53 36
    weOff := r 2 17 0, codeOff := r 2 35 18, slOff := r 2 53 36
    os := r 3 17 0, rs := r 3 35 18, outOff := r 3 53 36
    outStride := r 4 17 0, tag := r 4 33 18
    waitAddr := r 5 51 0, waitValue := (nth 0 w 6).signed, sigAddr := r 7 51 0, sigAdd := r 7 63 52 }

/-- Reserved bits of a record. -/
def mxReserved (w : List Word) : Bool :=
  let r := wordBits w
  r 0 19 19 != 0 || r 1 63 54 != 0 || r 2 63 54 != 0 || r 3 63 54 != 0 || r 4 63 34 != 0 || r 5 63 52 != 0

namespace MRec

/-- Is it a transposed read? -/
def trans (r : MRec) : Bool := r.mode == 1
/-- Is it a side record? -/
def side (r : MRec) : Bool := r.mode == 2
/-- Limb mode (R82). -/
def limb (r : MRec) : Bool := r.pair == 6
/-- The activation format. -/
def actFmt (r : MRec) : Fmt := if r.pair = 2 ∨ r.pair = 3 then .s4 else if r.pair = 6 then .s16 else .s8
/-- The weight format. -/
def wFmt (r : MRec) : Fmt :=
  if r.pair = 0 then .s8 else if r.pair = 1 then .s8x else if r.pair = 2 then .s4 else if r.pair = 3 then .s4x
  else if r.pair = 4 then .s4 else if r.pair = 5 then .s4x else .s16
/-- Has the weight format an escape? -/
def escaped (r : MRec) : Bool := r.pair == 1 || r.pair == 3 || r.pair == 5
/-- Tiles an array carries (R67). -/
def d (r : MRec) : Nat :=
  if r.side then 1 else if r.sparse = 1 then 2 else if r.sparse = 2 then 4
  else if r.pair = 2 ∨ r.pair = 3 then 2 else 1
/-- Elements each queue delivers per cycle (R75). -/
def e (r : MRec) : Nat := if r.trans then 1 else r.d
/-- Rows of a feed line (R75). -/
def lineRows (r : MRec) : Nat := 512 / (r.e * r.actFmt.width)
/-- The reduction extent. -/
def k (r : MRec) : Nat := r.kTiles * 16 * r.e
/-- Rows of an m-block (R68). -/
def mb (r : MRec) : Nat := if r.side then r.m else if r.limb then 64 else if r.trans then 128 / r.d else 128
/-- m-blocks. -/
def mBlocks (r : MRec) : Nat := cdiv r.m r.mb
/-- Rows of m-block b. -/
def blockRows (r : MRec) (b : Nat) : Nat := min r.mb (r.m - b * r.mb)
/-- Output columns of an n-set (R67). -/
def setCols (r : MRec) : Nat :=
  if r.side then 16 else if r.limb then 32 else if r.trans then 64 * r.d else 64
/-- Output columns of the record. -/
def n (r : MRec) : Nat := r.setCols * r.nSets
/-- Output tiles that the record names. -/
def oTiles (r : MRec) : Nat :=
  if r.side then r.nSets else if r.limb then 2 * r.nSets else if r.trans then 4 * r.d * r.nSets else 4 * r.nSets
/-- Reduction tiles that the record names. -/
def rTiles (r : MRec) : Nat := if r.side || r.trans then r.kTiles else r.d * r.kTiles
/-- Bytes of a tile's value plane (R69, R70). -/
def plane (r : MRec) : Nat :=
  if r.sparse ≠ 0 then planeBytes r.sparse
  else if r.limb then 512 else if r.wFmt.width = 4 then 128 else 256
/-- The output format. -/
def out (r : MRec) : Fmt := if r.outFmt = 0 then .fp32 else if r.outFmt = 1 then .bf16 else .fp16
/-- Bytes of an output element. -/
def z (r : MRec) : Nat := if r.outFmt = 0 then 4 else 2
/-- Tile sets of a block and of the record. -/
def sets (r : MRec) : Nat := r.mBlocks * r.nSets * r.kTiles
/-- m-block, n-set and k-tile of a tile set (R78). -/
def place (r : MRec) (i : Nat) : Nat × Nat × Nat :=
  (i / r.kTiles / r.nSets, i / r.kTiles % r.nSets, i % r.kTiles)
/-- The value-plane offset of a tile from the base of the planes (R70). -/
def tileRel (r : MRec) (o t : Nat) : Nat := o * r.os + t * r.rs
/-- Tiles (o, r) of a tile set, array by array (R72). In limb mode a tile serves two arrays. -/
def setTiles (r : MRec) (ns kt : Nat) : List (Nat × Nat) :=
  if r.limb then [(2 * ns, kt), (2 * ns + 1, kt)]
  else if r.trans then (upto (4 * r.d)).map fun i => (4 * r.d * ns + i, kt)
  else (upto 4).flatMap fun a => (upto r.d).map fun t => (4 * ns + a, r.d * kt + t)

end MRec

/-! ## Issue checks (R90) -/

/-- Bytes of the activation extent. -/
def actExtent (r : MRec) : Nat :=
  if r.side then r.m * 16 * r.kTiles
  else ((r.m - 1) / r.lineRows * (r.k / r.e) + r.k / r.e) * 64

/-- Input extents that the record reads, each from its first byte to its last: what lies between strided tiles belongs to
it (DESIGN CHOICE, log entry 67). -/
def mxInputs (r : MRec) : List (Nat × Nat) :=
  let last := r.tileRel (r.oTiles - 1) (r.rTiles - 1)
  [(r.aOff, actExtent r), (r.aeOff, r.m), (r.wOff, last + r.plane)]
  ++ (if r.trans then [] else [(r.weOff, r.n)])
  ++ (if r.sparse ≠ 0 then [(r.codeOff, last / 4 + r.plane / 4)] else [])
  ++ (if r.sideList then [(r.slOff, last * 128 / r.plane + 128)] else [])

/-- The output extent, from its first byte to its last. -/
def mxOutput (r : MRec) : Nat × Nat := (r.outOff, (r.m - 1) * r.outStride + r.n * r.z)

/-- Pair, pattern and mode outside R67, R69 or R85. -/
def mxComboBad (r : MRec) : Bool :=
  decide (6 < r.pair) || r.sparse == 3 || (r.sparse != 0 && decide (1 < r.pair))
    || (r.sideList && !r.escaped)
    || (r.side && (decide (7 < r.m) || decide (8 < r.nSets) || !(r.pair == 0 || r.pair == 4) || r.sparse != 0
        || r.sideList || r.tallyIn || !r.tallyOut || (r.pair == 0 && decide (8191 < r.kTiles))))

/-- A record that holds or continues a tally has one block (R81). -/
def mxOneBlock (r : MRec) : Bool := (r.tallyOut && !r.tallyIn) || (decide (r.m ≤ r.mb) && r.nSets == 1)

/-- The rules of R90 that need no other record. -/
def mxFormatBad (s : State) (w : List Word) : Bool :=
  let r := MRec.of w
  let ins := mxInputs r
  let (oo, ol) := mxOutput r
  r.type_ != 1 || r.mode == 3 || r.outFmt == 3 || mxReserved w
    || r.m == 0 || r.kTiles == 0 || r.nSets == 0 || mxComboBad r
    || r.aOff % 64 != 0 || r.outOff % 64 != 0 || r.outStride % 64 != 0
    || (r.sparse != 0 && r.codeOff % 64 != 0) || (r.sideList && r.slOff % 64 != 0)
    || r.wOff % r.plane != 0 || r.os % r.plane != 0 || r.rs % r.plane != 0
    || ins.any (fun x => decide (x.1 + x.2 > 0x40000)) || decide (oo + ol > 0x40000)
    || ins.any (fun x => overlaps oo ol x.1 x.2)
    || (r.waitEn && !isOwnAlias s r.waitAddr) || (r.sigEn && !isAlias r.sigAddr) || (r.sigEn && r.sigAdd == 0)
    || (!r.side && !mxOneBlock r)

/-- The tally-chain conditions against the array record before, if that one holds (R81). -/
def mxChainBad (w : List Word) (pred : Option (List Word)) : Bool :=
  let r := MRec.of w
  match pred with
  | none => r.tallyIn
  | some p =>
    let q := MRec.of p
    !r.tallyIn || r.mode != q.mode || r.pair != q.pair || r.sparse != q.sparse || r.sideList != q.sideList
      || r.m != q.m

/-- The hold record that an array record staged now follows: a faulted one has left no tally (R91). -/
def mxPred (a : Arrays) : Option (List Word) :=
  match a.run with
  | some x => if a.faulted.contains x.seq || (MRec.of x.words).tallyOut then none else some x.words
  | none => a.held

/-! ## State access and faults (R91) -/

/-- The arrays of core c replaced. -/
def State.setArr (s : State) (c : Nat) (a : Arrays) : State := s.setCore c { s.core c with arr := a }
/-- The side path of core c replaced. -/
def State.setSid (s : State) (c : Nat) (a : SidePath) : State := s.setCore c { s.core c with sid := a }

/-- DONE of the matrix port rises by n. -/
def mxDone (c n : Nat) (s : State) : State :=
  let r := s.core c
  s.setCore c { r with mx := r.mx.finish n }

/-- CORE_MX_FAULT takes a fault unless it holds one (DEDUCED, log entry 40). -/
def mxFault (c : Nat) (side : Bool) (ns kt row tag : Nat) (s : State) : State :=
  let r := s.core c
  if r.mxFault.isSome then s
  else s.setCore c { r with
    mxFault := some (fld ns 62 47 + fld kt 46 31 + fld row 30 17 + fld (b2n side) 16 16 + fld tag 15 0) }

/-- An event of the matrix engine with detail TAG. -/
def mxEvent (c code tag : Nat) (side : Bool) (pos : Nat) (s : State) : State :=
  raiseEv (.core c) code (detTag tag (b2n side) 0 pos) s

/-- The output rows of a block become undefined (R91). -/
def blockUndefined (c : Nat) (r : MRec) (b ns : Nat) (s : State) : State :=
  (upto (r.blockRows b)).foldl (fun s i =>
    sramUndefined c (r.outOff + (b * r.mb + i) * r.outStride + ns * r.setCols * r.z) (r.setCols * r.z) s) s

/-- Does a list of side entries belong to the block that waits for its drain? -/
def ofDrain (a : Arrays) (p : SidePend) : Bool :=
  match a.drain with
  | some d => p.seq == d.seq && decide (p.at' / (MRec.of p.words).kTiles = d.block)
  | none => false

/-- A record of the arrays faults at a tile set: any held tally goes, with the side lists that would join it; a finished
block is still drained, unless it is the block that faults (`drains`). Where the record's execution has begun, the
output rows of the faulting block become undefined. A record behind the faulting one stays as it is until the restart.
(DESIGN CHOICE, log entry 65) -/
def recordFault (c : Nat) (words : List Word) (seq at' row : Nat) (begun drains : Bool) (s : State) : State :=
  let a := (s.core c).arr
  let r := MRec.of words
  let (b, ns, kt) := r.place at'
  let running := match a.run with
    | some x => x.seq == seq
    | none => false
  let kept := a.drain.isSome && !drains
  let s := s.setArr c { a with
    halt := true, faulted := a.faulted ++ [seq], held := none
    shadow := if running then none else a.shadow
    tally := if running then [] else a.tally
    drain := if drains then none else a.drain
    pend := a.pend.filter fun p => (kept && ofDrain a p) || decide (seq < p.seq)
    sums := if kept then a.sums else [], cols := if kept then a.cols else [] }
  let s := mxFault c false ns kt row r.tag s
  if begun && r.tallyOut then blockUndefined c r b ns s else s

/-- The arrays' running record faults at a tile set. -/
def arraysFault (c at' row : Nat) (begun : Bool) (s : State) : State :=
  match (s.core c).arr.run with
  | none => s
  | some x => recordFault c x.words x.seq at' row begun false s

/-! ## Active cycles (R96) -/

/-- Arithmetic cycles in a dike tick (R411). -/
def arithPerTick : Nat := 24

/-- The bounds of a cycle count now: at either end of an interval up to a tick's cycles may miss. (DEDUCED, log entry
66) -/
def CycleCount.bounds (k : CycleCount) (now : Nat) : Nat × Nat :=
  match k.since with
  | none => (k.lo, k.hi)
  | some t =>
    let n := arithPerTick * (now - t)
    (k.lo + (n - (arithPerTick - 1)), k.hi + n + (arithPerTick - 1))

/-- An interval begins or ends. -/
def CycleCount.note (k : CycleCount) (busy : Bool) (now : Nat) : CycleCount :=
  match busy, k.since with
  | true, none => { k with since := some now }
  | false, some _ => let b := k.bounds now; { k with lo := b.1, hi := b.2, since := none }
  | _, _ => k

/-- A read of a cycle count: a free value within its bounds that no earlier read exceeds. -/
def CycleCount.read (k : CycleCount) (s : State) : Nat × CycleCount × State :=
  let (lo, hi) := k.bounds s.now
  let (d, s) := s.draw 64
  let v := max k.last (lo + d % (hi - lo + 1))
  (v, { k with last := v }, s)

/-- The arrays hold a record or not. -/
def noteArrays (c : Nat) (s : State) : State :=
  let x := s.core c
  s.setCore c { x with mxActive := x.mxActive.note (x.arr.run.isSome || x.arr.fin.isSome) s.now }

/-! ## Stage and start (R87, R89) -/

/-- A record is rejected: MATRIX_FORMAT, DONE, nothing else. -/
def mxReject (c : Nat) (w : List Word) (s : State) : State :=
  let r := MRec.of w
  mxEvent c evMatrixFormat r.tag r.side 0 (mxDone c 1 s)

/-- The head record of the coil moves to its executor's slot and is checked. -/
def mxStage (c : Nat) (s : State) : State :=
  match (s.core c).mx.coil with
  | [] => s
  | w :: _ =>
    let s := recordBoundary c s
    let x := s.core c
    let s := s.setCore c { x with mx := x.mx.take 1 1 }
    let r := MRec.of w
    let bad := mxFormatBad s w || (!r.side && mxChainBad w (mxPred x.arr))
    if bad then mxReject c w s
    else
      let s := if r.side then s.setSid c { x.sid with staged := some w, t0 := s.now, late := false }
        else s.setArr c { (s.core c).arr with staged := some w, t0 := s.now, late := false }
      if r.waitEn then
        registerWait c (b2n r.side) (if r.side then .side c r.tag else .arrays c r.tag) r.waitAddr r.waitValue s
      else s

/-- Is the slot of the head record free? -/
def mxStageDue (s : State) (c : Nat) : Bool :=
  let x := s.core c
  match x.mx.coil with
  | [] => false
  | w :: _ => if (MRec.of w).side then x.sid.staged.isNone else x.arr.staged.isNone

/-- The staged record of an executor. -/
def mxStaged (s : State) (c : Nat) (side : Bool) : Option (List Word) :=
  if side then (s.core c).sid.staged else (s.core c).arr.staged

/-- The issuer of a record's accesses. -/
def mxWho (c : Nat) (r : MRec) : Issuer := if r.side then .side c r.tag else .arrays c r.tag

/-- How the wait of a staged record stands. -/
def mxWait (s : State) (c : Nat) (w : List Word) : WaitState :=
  let r := MRec.of w
  if r.waitEn then waitState c (b2n r.side) (mxWho c r) r.waitAddr r.waitValue s else .holds

/-- Can the executor take its staged record? -/
def mxStartDue (s : State) (c : Nat) (side : Bool) : Bool :=
  let x := s.core c
  match mxStaged s c side with
  | none => false
  | some w =>
    (if side then x.sid.run.isNone && !x.sid.halt else x.arr.run.isNone && !x.arr.halt)
      && mxWait s c w != .notYet

/-- Has a staged record waited longer than ENGINE_WAIT? -/
def mxWaitOverdue (s : State) (c : Nat) (side : Bool) : Bool :=
  let x := s.core c
  let (t0, late) := if side then (x.sid.t0, x.sid.late) else (x.arr.t0, x.arr.late)
  match mxStaged s c side with
  | none => false
  | some w => (MRec.of w).waitEn && !late && waitOverdue c (b2n side) t0 s

/-- SYNC_WAIT_TIMEOUT of an executor. -/
def mxTimeout (c : Nat) (side : Bool) (s : State) : State :=
  let x := s.core c
  let tag := match mxStaged s c side with
    | some w => (MRec.of w).tag
    | none => 0
  let s := if side then s.setSid c { x.sid with late := true } else s.setArr c { x.arr with late := true }
  mxEvent c evSyncWaitTimeout tag side 0 s

/-- A staged array record starts. -/
def arraysStart (c : Nat) (w : List Word) (s : State) : State :=
  let r := MRec.of w
  let a := (s.core c).arr
  let s := s.setArr c { a with staged := none, late := false }
  let pred := a.held
  match mxWait s c w with
  | .notYet => s
  | .failed code =>
    let s := dropWait c 0 s
    let a := (s.core c).arr
    let s := s.setArr c { a with run := some { words := w, seq := a.seq }, seq := a.seq + 1, tag := r.tag }
    waitEvent (mxWho c r) r.waitAddr code (arraysFault c 0 0 false s)
  | .holds =>
    let s := dropWait c 0 s
    if mxChainBad w pred then mxReject c w s
    else
      let a := (s.core c).arr
      s.setArr c { a with
        run := some { words := w, seq := a.seq }, seq := a.seq + 1, tag := r.tag, held := none }

/-- The side path faults at a position. -/
def sideFault (c o kt row : Nat) (begun : Bool) (s : State) : State :=
  let x := (s.core c).sid
  match x.run with
  | none => s
  | some w =>
    let r := MRec.of w
    let s := s.setSid c { x with halt := true }
    let s := mxFault c true o kt row r.tag s
    if begun then (upto r.nSets).foldl (fun s ns => blockUndefined c r 0 ns s) s else s

/-- A staged side record starts. -/
def sideStart (c : Nat) (w : List Word) (s : State) : State :=
  let r := MRec.of w
  let wait := mxWait s c w
  let x := (s.core c).sid
  let s := dropWait c 1 (s.setSid c { x with staged := none, late := false, run := some w, written := false
                                             tag := r.tag })
  match wait with
  | .failed code => waitEvent (mxWho c r) r.waitAddr code (sideFault c 0 0 0 false s)
  | _ => s

/-- An executor starts its staged record. -/
def mxStart (c : Nat) (side : Bool) (s : State) : State :=
  match mxStaged s c side with
  | none => s
  | some w =>
    let s := if mxWaitOverdue s c side then mxTimeout c side s else s
    let s := recordBoundary c s
    if side then sideStart c w s else noteArrays c (arraysStart c w s)

/-! ## Tile sets (R70 to R73, R106, R54) -/

/-- Reads a plane of a tile, or the first word of it that could not be corrected. -/
def readPlane (c off n : Nat) (s : State) : Except Nat (List Byte) × State :=
  if n = 0 then (.ok [], s) else sramRead c off n s

/-- A used side-list entry of 8 B: INDEX and VALUE. -/
def sideEntries (bs : List Byte) : List (Nat × Nat × Nat) :=
  (chunks 7 16 bs).map fun e => let v := leNat e; (bits v 15 0, bits v 31 16, bits v 63 32)

/-- The used entries of a side list, unless it breaks R53: order, reserved bits, unused entries at the
end. -/
def sideListOk (bs : List Byte) : Option (List (Nat × Nat)) :=
  let es := sideEntries bs
  let used := es.takeWhile fun e => e.1 != 0xFFFF
  let rest := es.drop used.length
  let ascending := (upto (used.length - 1)).all fun i =>
    decide ((nth (0, 0, 0) used i).1 < (nth (0, 0, 0) used (i + 1)).1)
  if es.all (fun e => e.2.1 == 0) && rest.all (fun e => e.1 == 0xFFFF)
      && used.all (fun e => decide (e.1 < 256)) && ascending
  then some (used.map fun e => (e.1, e.2.2)) else none

/-- The raw code of a dense weight at stored row i and column j. -/
def denseCode (r : MRec) (plane : List Byte) (i j : Nat) : Nat :=
  let p := 16 * i + j
  if r.limb then leNat ((plane.drop (2 * p)).take 2)
  else if r.wFmt.width = 4 then (nth 0#8 plane (p / 2)).toNat / 16 ^ (p % 2) % 16
  else (nth 0#8 plane p).toNat

/-- The raw codes of a tile at its kept positions: row, column, code. -/
def tileCodes (r : MRec) (plane codes : List Byte) : List (Nat × Nat × Nat) :=
  if r.sparse ≠ 0 then expandTile r.sparse plane codes
  else (upto 256).map fun p => (p / 16, p % 16, denseCode r plane (p / 16) (p % 16))

/-- The escape code of the weight format. -/
def escapeCode (r : MRec) : Nat := if r.wFmt.width = 4 then 8 else 0x80

/-- Does a tile's side list agree with its escapes (R54, R103)? -/
def escapesOk (r : MRec) (plane codes : List Byte) (used : List (Nat × Nat)) : Bool :=
  let esc := (tileCodes r plane codes).filter fun x => x.2.2 == escapeCode r
  !r.escaped || (used.length == esc.length
    && used.all fun u => esc.any fun x => 16 * x.1 + x.2.1 == u.1)

/-- One tile of a set: its planes and side list, or the word that failed. -/
def readTile (c : Nat) (r : MRec) (o t : Nat) (s : State) :
    Except Nat (List Byte × List Byte × List Byte) × State :=
  let rel := r.tileRel o t
  match readPlane c (r.wOff + rel) r.plane s with
  | (.error e, s) => (.error e, s)
  | (.ok v, s) =>
    match readPlane c (r.codeOff + rel / 4) (if r.sparse ≠ 0 then r.plane / 4 else 0) s with
    | (.error e, s) => (.error e, s)
    | (.ok k, s) =>
      match readPlane c (r.slOff + rel * 128 / r.plane) (if r.sideList then 128 else 0) s with
      | (.error e, s) => (.error e, s)
      | (.ok l, s) => (.ok (v, k, l), s)

/-- Every tile of a set. -/
def readTiles (c : Nat) (r : MRec) : List (Nat × Nat) → State →
    Except Nat (List (List Byte × List Byte × List Byte)) × State
  | [], s => (.ok [], s)
  | (o, t) :: rest, s =>
    match readTile c r o t s with
    | (.error e, s) => (.error e, s)
    | (.ok x, s) =>
      match readTiles c r rest s with
      | (.error e, s) => (.error e, s)
      | (.ok l, s) => (.ok (x :: l), s)

/-- The fill path completes the next tile set of the arrays' record. -/
def fillTiles (c : Nat) (s : State) : State :=
  let a := (s.core c).arr
  match a.run with
  | none => s
  | some x =>
    let r := MRec.of x.words
    let (_, ns, kt) := r.place x.fillAt
    match readTiles c r (r.setTiles ns kt) s with
    | (.error o, s) => sramUncorr c o (.arrays c r.tag) (arraysFault c x.fillAt 0 true s)
    | (.ok tiles, s) =>
      let codesBad := r.sparse != 0 && tiles.any fun t => !codesOk r.sparse t.2.1
      let lists := tiles.map fun t => if r.sideList then sideListOk t.2.2 else some []
      let listBad := r.escaped && (upto tiles.length).any fun i =>
        match nth none lists i with
        | none => true
        | some u => let t := nth ([], [], []) tiles i; !escapesOk r t.1 t.2.1 u
      let formBad := r.sideList && lists.any (·.isNone)
      let pos := ns * 65536 + kt
      if codesBad || listBad || formBad then
        let s := arraysFault c x.fillAt 0 true s
        let s := if codesBad then mxEvent c evSparseCodeBad r.tag false pos s else s
        if listBad || formBad then mxEvent c evSideListBad r.tag false pos s else s
      else
        let ls := lists.map fun l => l.getD []
        let set : TileSet := ⟨x.fillAt, (tiles.zip ls).map fun t => (t.1.1, t.1.2.1, t.2)⟩
        let pend := if r.sideList then a.pend ++ [⟨x.words, x.seq, x.fillAt, ls⟩] else a.pend
        s.setArr c { a with run := some { x with fillAt := x.fillAt + 1 }, shadow := some set, pend := pend }

/-- Can the next tile set be filled: a record runs, has sets left, and the shadows are free? -/
def fillDue (s : State) (c : Nat) : Bool :=
  let a := (s.core c).arr
  !a.halt && a.shadow.isNone && match a.run with
    | none => false
    | some x => decide (x.fillAt < (MRec.of x.words).sets)

/-! ## Passes (R50, R74, R75, R82) -/

/-- The SRAM offset of the feed line that holds activation (m, k) (R75). -/
def feedLine (r : MRec) (m k : Nat) : Nat := r.aOff + 64 * (m / r.lineRows * (r.k / r.e) + k / r.e)

/-- Activation (m, k) of an array record, as its raw code. -/
def actCode (s : State) (c : Nat) (r : MRec) (m k : Nat) : Nat :=
  let p := m % r.lineRows * r.e + k % r.e
  let a := sramAddr c (feedLine r m k)
  if r.actFmt.width = 4 then (leNat (s.mem.read (a + p / 2) 1)) / 16 ^ (p % 2) % 16
  else leNat (s.mem.read (a + p * (r.actFmt.width / 8)) (r.actFmt.width / 8))

/-- The exact products of a block's row: elements of the record's S32 or limb partial sums, in the order of
the tally's columns. `acts` are the 16 × e activations of the pass, `w` gives a tile's weight codes. -/
def weightVal (r : MRec) (code : Nat) : Int :=
  if r.escaped && code == escapeCode r then 0 else sext code r.wFmt.width

/-- A tile's weights as rows of 16 values; positions not kept are zero. -/
def tileRowsOf (r : MRec) (plane codes : List Byte) : List (List Int) :=
  let cells := tileCodes r plane codes
  (upto 16).map fun i =>
    let row := cells.filter fun x => x.1 == i
    (upto 16).map fun j => match row.find? fun x => x.2.1 == j with
      | some x => weightVal r x.2.2
      | none => 0

/-- Sum of products of two lists. -/
def dot (a b : List Int) : Int := ((a.zip b).map fun x => x.1 * x.2).foldl (· + ·) 0

/-- Column j of a tile. -/
def tileCol (t : List (List Int)) (j : Nat) : List Int := t.map fun row => nth 0 row j

/-- What one row adds to each tally column in one pass (R67, R72, R104, R105). -/
def passRow (r : MRec) (tiles : List (List (List Int))) (acts : List Int) : List Int :=
  if r.trans then tiles.flatMap fun t => (upto 16).map fun i => dot acts (nth [] t i)
  else (upto 4).flatMap fun a => (upto 16).map fun j =>
    ((upto r.d).map fun x => dot ((acts.drop (16 * x)).take 16) (tileCol (nth [] tiles (a * r.d + x)) j)).foldl
      (· + ·) 0

/-- High and low limb of an S16 value (R51). -/
def limbs (v : Int) : Int × Int := (v / 256, v % 256)

/-- The four partial sums of each output of a limb pass: hh, hl, lh, ll (R51, R82). -/
def passLimbs (r : MRec) (tiles : List (List (List Int))) (acts : List Int) : List Int :=
  let ah := acts.map fun v => (limbs v).1
  let al := acts.map fun v => (limbs v).2
  tiles.flatMap fun t => (upto 16).flatMap fun j =>
    let w := if r.trans then nth [] t j else tileCol t j
    let wh := w.map fun v => (limbs v).1
    let wl := w.map fun v => (limbs v).2
    [dot ah wh, dot ah wl, dot al wh, dot al wl]

/-- One checked tally addition (R50). -/
def tallyAdd (t : TallyEl) (x : Int) : TallyEl :=
  let v := t.v + x
  ⟨sext (toBits v 32) 32, t.ovf || decide (v < -2147483648) || decide (v > 2147483647)⟩

/-- A row's tally after a pass: written by the first, added to by later ones. -/
def tallyRow (first : Bool) (old : List TallyEl) (xs : List Int) : List TallyEl :=
  if first then xs.map fun x => tallyAdd {} x
  else (upto xs.length).map fun i => tallyAdd (nth {} old i) (nth 0 xs i)

/-- Feed lines of row m in a pass. -/
def passLines (r : MRec) (m kt : Nat) : List Nat :=
  (upto 16).map fun q => feedLine r m (kt * 16 * r.e + q * r.e)

/-- The first row of a block whose feed lines hold a word that could not be corrected, and that word. A line that
serves several rows faults at the first of them, whichever row the word belongs to (DESIGN CHOICE, log entry 67). -/
def passBad (s : State) (c : Nat) (r : MRec) (b kt : Nat) : Option (Nat × Nat) :=
  ((upto (r.blockRows b)).filterMap fun i =>
    ((passLines r (b * r.mb + i) kt).filterMap fun l => sramBad s c l 64).head?.map fun o => (i, o)).head?

/-- The arrays broadcast n rows of a pass (R96). -/
def broadcastRows (c : Nat) (r : MRec) (n : Nat) (s : State) : State :=
  let a := (s.core c).arr
  s.setArr c { a with broadcast := (a.broadcast + n * (if r.limb then 2 else 1)) % 2 ^ 64 }

/-- A tile set is swapped in and its passes run. -/
def swapPass (c : Nat) (s : State) : State :=
  let a := (s.core c).arr
  match a.run, a.shadow with
  | some x, some set =>
    let r := MRec.of x.words
    let (b, ns, kt) := r.place x.passAt
    let lines := ((upto (r.blockRows b)).flatMap fun i => passLines r (b * r.mb + i) kt).eraseDups
    let s := each lines (fun l s => sramSeeps c l 64 s) s
    match passBad s c r b kt with
    | some (row, o) => sramUncorr c o (.arrays c r.tag) (arraysFault c x.passAt row true (broadcastRows c r row s))
    | none =>
      let tiles := set.tiles.map fun t => tileRowsOf r t.1 t.2.1
      let first := kt == 0 && !r.tallyIn
      let tally := (upto (r.blockRows b)).map fun i =>
        let acts := (upto (16 * r.e)).map fun j =>
          sext (actCode s c r (b * r.mb + i) (kt * 16 * r.e + j)) r.actFmt.width
        tallyRow first (nth [] a.tally i) (if r.limb then passLimbs r tiles acts else passRow r tiles acts)
      let p := r.blockRows b * (if r.limb then 2 else 1)
      let x' := { x with passAt := x.passAt + 1 }
      let ended := kt + 1 == r.kTiles
      let last := x.passAt + 1 == r.sets
      s.setArr c { a with
        shadow := none
        broadcast := (a.broadcast + p) % 2 ^ 64
        tally := if ended && r.tallyOut then [] else tally
        drain := if ended && r.tallyOut then some ⟨x.words, x.seq, b * r.nSets + ns, tally⟩ else a.drain
        held := if ended && !r.tallyOut then some x.words else a.held
        run := if last then none else some x'
        fin := if last then some x' else a.fin }
  | _, _ => s

/-- Can the next tile set be swapped in (R73, R79, R92)? -/
def swapDue (s : State) (c : Nat) : Bool :=
  let a := (s.core c).arr
  !a.halt && s.gov.mxDuty != 0 && a.shadow.isSome && match a.run with
    | none => false
    | some x =>
      let r := MRec.of x.words
      (x.passAt % r.kTiles != 0 || a.drain.isNone) && (x.passAt + 1 != r.sets || a.fin.isNone)

/-! ## Side lists (R55, R84) -/

/-- One side-list entry of a tile: the output column within the n-set and the reduction index. -/
def sidePlace (r : MRec) (kt tile index : Nat) : Nat × Nat :=
  let row := index / 16 % 16
  let col := index % 16
  if r.limb then (0, 0)
  else if r.trans then (16 * tile + row, 16 * kt + col)
  else (16 * (tile / r.d) + col, 16 * (r.d * kt + tile % r.d) + row)

/-- Applies one entry to every row's sum. -/
def sideApply (s : State) (c : Nat) (r : MRec) (b : Nat) (col k value : Nat) (sums : List (List Nat)) :
    List (List Nat) :=
  (upto (r.blockRows b)).map fun i =>
    let row := fit 0 r.setCols (nth [] sums i)
    let act := sext (actCode s c r (b * r.mb + i) k) r.actFmt.width
    let p := rne32 ((FV.ofInt act).mul (f32 value))
    put row col (f32Add (nth 0 row col) p)

/-- The side lists of one tile set join the side sums. -/
def sideSet (c : Nat) (p : SidePend) (s : State) : State :=
  let a := (s.core c).arr
  let r := MRec.of p.words
  let (b, _, kt) := r.place p.at'
  let work := (upto p.lists.length).flatMap fun t => (nth [] p.lists t).map fun e =>
    let (col, k) := sidePlace r kt t e.1
    (col, k, e.2)
  let sums := work.foldl (fun sums e => sideApply s c r b e.1 e.2.1 e.2.2 sums) a.sums
  s.setArr c { a with sums := sums, cols := (a.cols ++ work.map (·.1)).eraseDups }

/-- The tile sets whose side lists the block that waits for them has: the drain's, or a hold record's. -/
def sideWork (a : Arrays) : List SidePend :=
  match a.drain with
  | some _ => a.pend.filter (ofDrain a)
  | none => match a.fin with
    | some x => a.pend.filter fun p => p.seq == x.seq
    | none => []

/-- The activation lines that the side lists of one tile set read, entry by entry, with the row each serves (R84). -/
def sideLines (p : SidePend) : List (Nat × Nat) :=
  let r := MRec.of p.words
  let (b, _, kt) := r.place p.at'
  (upto p.lists.length).flatMap fun t => (nth [] p.lists t).flatMap fun e =>
    (upto (r.blockRows b)).map fun i => (i, feedLine r (b * r.mb + i) (sidePlace r kt t e.1).2)

/-- The side lists of tile sets are worked off until a word cannot be corrected: the record they belong to faults there
(R36, R91). -/
def sideSets (c : Nat) : List SidePend → State → State
  | [], s => s
  | p :: rest, s =>
    let lines := sideLines p
    let s := each ((lines.map (·.2)).eraseDups) (fun l s => sramSeeps c l 64 s) s
    match lines.findSome? fun x => (sramBad s c x.2 64).map fun o => (x.1, o) with
    | none => sideSets c rest (sideSet c p s)
    | some (row, o) =>
      let r := MRec.of p.words
      sramUncorr c o (.arrays c r.tag) (recordFault c p.words p.seq p.at' row true (ofDrain (s.core c).arr p) s)

/-- The side sums of the next block are formed. -/
def sideListWork (c : Nat) (s : State) : State :=
  let a := (s.core c).arr
  let work := sideWork a
  sideSets c work (s.setArr c { a with pend := a.pend.filter fun p => !work.contains p })

/-! ## The drain (R50, R52, R56, R80, R491) -/

/-- The tally, tally row and tally column of column i of block row m (R82, R491). -/
def tallyPlace (r : MRec) (m i : Nat) : Nat × Nat × Nat :=
  if r.limb then
    let o := i / 4
    let part := i % 4
    (2 * (o / 16) + part % 2, m + 64 * (part / 2), o % 16)
  else
    let w := 16 * (if r.trans then r.d else 1)
    let j := i % w
    (i / w, m + r.mb * (j / 16), j % 16)

/-- The exact tally value of output column i of a row, and whether any part overflowed. -/
def outTally (r : MRec) (row : List TallyEl) (i : Nat) : Int × Bool :=
  if r.limb then
    let t (p : Nat) : TallyEl := nth {} row (4 * i + p)
    ((t 0).v * 65536 + ((t 1).v + (t 2).v) * 256 + (t 3).v, (t 0).ovf || (t 1).ovf || (t 2).ovf || (t 3).ovf)
  else let t := nth {} row i; (t.v, t.ovf)

/-- Dequantization of R56: output bits and whether the result is counted. -/
def dequant (f : Fmt) (t ea ew : Int) (side : Option Nat) : Nat × Bool :=
  let v := FV.ofScaled t (ea + ew)
  match side with
  | none => toFloat f .rne v
  | some sum =>
    let (d, c1) := toFloat .fp32 .rne v
    let (x, c2) := toFloat .fp32 .rne ((f32 d).add ((f32 sum).scale ea))
    if f = .fp32 then (x, c1 || c2)
    else
      let (y, c3) := toFloat f .rne (f32 x)
      (y, c1 || c2 || c3)

/-- A signed byte of a core's SRAM. -/
def sramS8 (s : State) (c off : Nat) : Int := sext (leNat (s.mem.read (sramAddr c off) 1)) 8

/-- One output row of a block: its bytes and how many results are counted. -/
def drainRow (s : State) (c : Nat) (r : MRec) (b ns i : Nat) (row : List TallyEl) (sums : List Nat)
    (cols : List Nat) : List Byte × Nat :=
  let ea := sramS8 s c (r.aeOff + b * r.mb + i)
  let res := (upto r.setCols).map fun j =>
    let ew := if r.trans then 0 else sramS8 s c (r.weOff + ns * r.setCols + j)
    let (t, ovf) := outTally r row j
    if ovf then (r.out.nanBits, false)
    else dequant r.out t ea ew (if cols.contains j then some (nth 0 sums j) else none)
  (res.flatMap fun x => leBytes r.z x.1, (res.filter (·.2)).length)

/-- The overflowed elements of a block, in the order in which the drain reads them (R50). -/
def overflowed (r : MRec) (tally : List (List TallyEl)) : List (Nat × Nat × Nat) :=
  let all := (upto tally.length).flatMap fun m =>
    let row := nth [] tally m
    (upto row.length).filterMap fun i => if (nth {} row i).ovf then some (tallyPlace r m i) else none
  let first (a b : Nat × Nat × Nat) : Bool := decide (a.2.1 < b.2.1)
    || (a.2.1 == b.2.1 && (decide (a.1 < b.1) || (a.1 == b.1 && decide (a.2.2 ≤ b.2.2))))
  sortBy first all

/-- The exponents that the drain of a block reads: the weights' of its n-set, then each row's, with the row (R80). -/
def drainReads (r : MRec) (b ns : Nat) : List (Nat × Nat × Nat) :=
  (if r.trans then [] else [(0, r.weOff + ns * r.setCols, r.setCols)])
    ++ (upto (r.blockRows b)).map fun i => (i, r.aeOff + b * r.mb + i, 1)

/-- The finished block is drained; a word of its exponents that cannot be corrected faults its record (R36, R91), at the
block's last k-tile (DESIGN CHOICE, log entry 65). -/
def drainBlock (c : Nat) (s : State) : State :=
  let a := (s.core c).arr
  match a.drain with
  | none => s
  | some d =>
    let r := MRec.of d.words
    let b := d.block / r.nSets
    let ns := d.block % r.nSets
    let reads := drainReads r b ns
    let s := each reads (fun x s => sramSeeps c x.2.1 x.2.2 s) s
    match reads.findSome? fun x => (sramBad s c x.2.1 x.2.2).map fun o => (x.1, o) with
    | some (row, o) => sramUncorr c o (.arrays c r.tag)
        (recordFault c d.words d.seq (d.block * r.kTiles + r.kTiles - 1) row true true s)
    | none =>
    let rows := (upto (r.blockRows b)).map fun i =>
      drainRow s c r b ns i (nth [] d.tally i) (nth [] a.sums i) a.cols
    let s := (upto rows.length).foldl (fun s i =>
      sramWrite c (r.outOff + (b * r.mb + i) * r.outStride + ns * r.setCols * r.z) (nth ([], 0) rows i).1 s) s
    let s := saturate c (rows.map (·.2)).sum s
    let exceeded := overflowed r d.tally
    let s := s.setArr c { (s.core c).arr with drain := none, sums := [], cols := [] }
    match exceeded with
    | [] => s
    | o :: _ =>
      let mask := maskOf ((exceeded.map (·.1)).eraseDups)
      let s := s.setReg (.core c) 0x418 (s.reg (.core c) 0x418 ||| mask)
      if a.ovfSeq = some d.seq then s
      else mxEvent c evTallyOvf r.tag false (o.1 * 65536 + o.2.1 * 16 + o.2.2)
        (s.setArr c { (s.core c).arr with ovfSeq := some d.seq })

/-- May the finished block be drained: its side work is done (R80)? -/
def drainDue (s : State) (c : Nat) : Bool :=
  let a := (s.core c).arr
  a.drain.isSome && (sideWork a).isEmpty

/-! ## Side records (R85, R86) -/

/-- Activation (m, k) of a side record. -/
def sideAct (s : State) (c : Nat) (r : MRec) (m k : Nat) : Int :=
  sext (leNat (s.mem.read (sramAddr c (r.aOff + m * 16 * r.kTiles + k)) 1)) 8

/-- The first word that a side record cannot read, in the order of R86: output tile, k-tile, row, offset; the exponents
come last, as its results are formed. -/
def sideBad (s : State) (c : Nat) (r : MRec) : Option (Nat × Nat × Nat × Nat) :=
  ((upto r.kTiles).findSome? fun kt => (upto r.nSets).findSome? fun o =>
    match sramBad s c (r.wOff + r.tileRel o kt) r.plane with
    | some w => some (o, kt, 0, w)
    | none => (upto r.m).findSome? fun m =>
      (sramBad s c (r.aOff + m * 16 * r.kTiles + 16 * kt) 16).map fun w => (o, kt, m, w)).or
  ((upto r.nSets).findSome? fun o =>
    match sramBad s c (r.weOff + 16 * o) 16 with
    | some w => some (o, r.kTiles - 1, 0, w)
    | none => (upto r.m).findSome? fun m => (sramBad s c (r.aeOff + m) 1).map fun w => (o, r.kTiles - 1, m, w))

/-- Corrections of a side record's reads. -/
def sideSeeps (c : Nat) (r : MRec) (s : State) : State :=
  let s := (upto r.kTiles).foldl (fun s kt => (upto r.nSets).foldl (fun s o =>
    sramSeeps c (r.wOff + r.tileRel o kt) r.plane s) s) s
  sramSeeps c r.aeOff r.m (sramSeeps c r.weOff r.n (sramSeeps c r.aOff (r.m * 16 * r.kTiles) s))

/-- The side path runs its record. -/
def sideRun (c : Nat) (s : State) : State :=
  let x := (s.core c).sid
  match x.run with
  | none => s
  | some w =>
    let r := MRec.of w
    let s := sideSeeps c r s
    match sideBad s c r with
    | some (o, kt, m, word_) => sramUncorr c word_ (.side c r.tag) (sideFault c o kt m true s)
    | none =>
      let tile (o kt : Nat) : List (List Int) :=
        tileRowsOf r (s.mem.read (sramAddr c (r.wOff + r.tileRel o kt)) r.plane) []
      let rows := (upto r.m).map fun m =>
        let el := (upto r.nSets).flatMap fun o =>
          let tiles := (upto r.kTiles).map (tile o)
          (upto 16).map fun j =>
            let t := ((upto r.kTiles).map fun kt =>
              dot ((upto 16).map fun i => sideAct s c r m (16 * kt + i)) (tileCol (nth [] tiles kt) j)).foldl
                (· + ·) 0
            dequant r.out t (sramS8 s c (r.aeOff + m)) (sramS8 s c (r.weOff + 16 * o + j)) none
        (el.flatMap fun v => leBytes r.z v.1, (el.filter (·.2)).length)
      let s := (upto r.m).foldl (fun s m =>
        sramWrite c (r.outOff + m * r.outStride) (nth ([], 0) rows m).1 s) s
      let s := saturate c (rows.map (·.2)).sum s
      s.setSid c { (s.core c).sid with written := true }

/-! ## Completion and commands (R89, R178) -/

/-- Is a record of the executor ready to complete? -/
def mxCompleteDue (s : State) (c : Nat) (side : Bool) : Bool :=
  let x := s.core c
  if side then x.sid.run.isSome && x.sid.written && !x.sid.halt
  else match x.arr.fin with
    | none => false
    | some f => (match x.arr.drain with
        | some d => d.seq != f.seq
        | none => true) && !x.arr.faulted.contains f.seq && !x.arr.pend.any fun p => p.seq == f.seq

/-- A record completes: its signal, DONE. -/
def mxComplete (c : Nat) (side : Bool) (s : State) : State :=
  let x := s.core c
  let w := if side then x.sid.run.getD [] else (x.arr.fin.map (·.words)).getD []
  let r := MRec.of w
  let s := if side then s.setSid c { x.sid with run := none, written := false }
    else noteArrays c (s.setArr c { x.arr with fin := none })
  let s := recordBoundary c (mxDone c 1 s)
  if r.sigEn then sendSignal (mxWho c r) r.sigAddr r.sigAdd s else s

/-- CORE_MX_FAULT is cleared when the executor it names restarts: with VALID its other fields read as zero too
(DESIGN CHOICE, log entry 67). -/
def clearMxFault (c : Nat) (side : Bool) (s : State) : State :=
  let x := s.core c
  match x.mxFault with
  | some v => if bit v 16 = side then s.setCore c { x with mxFault := none } else s
  | none => s

/-- PORT_CTL code 1: the arrays restart; a faulted record is discarded. -/
def restartArrays (c : Nat) (s : State) : State :=
  let a := (s.core c).arr
  let stays := fun (x : MxRun) => !a.faulted.contains x.seq
  let running := a.run.any stays
  if !a.halt then s
  else clearMxFault c false (mxDone c a.faulted.length (noteArrays c (s.setArr c { a with
    halt := false, faulted := [], run := a.run.filter stays, fin := a.fin.filter stays
    shadow := if running then a.shadow else none })))

/-- PORT_CTL code 2: the side path restarts. -/
def restartSide (c : Nat) (s : State) : State :=
  let x := (s.core c).sid
  if !x.halt then s
  else clearMxFault c true (mxDone c 1 (s.setSid c { x with halt := false, run := none, written := false }))

/-- PORT_CTL code 3 on the matrix port: the coil and the staged records are discarded. -/
def flushMatrix (c : Nat) (s : State) : State :=
  let x := s.core c
  let n := x.mx.coil.length + b2n x.arr.staged.isSome + b2n x.sid.staged.isSome
  let s := s.setCore c { x with
    mx := (x.mx.finish n).take 1 x.mx.coil.length
    arr := { x.arr with staged := none, late := false }
    sid := { x.sid with staged := none, late := false } }
  dropWait c 1 (dropWait c 0 s)

/-- CORE_MX_STATUS and CORE_MX_FAULT (R96). -/
def mxStatus (s : State) (c : Nat) : Nat :=
  let x := s.core c
  fld x.sid.tag 47 32 + fld x.arr.tag 31 16 + 16 * b2n x.arr.held.isSome + 8 * b2n x.sid.halt
    + 4 * b2n x.arr.halt + 2 * b2n x.sid.run.isSome + b2n (x.arr.run.isSome || x.arr.fin.isSome)

end Sys2Proof.Machine
end

