-- ==== Sys2Proof/Machine/VectorRec.lean ====
section
/-! DEFINITION. Chain records: their fields (R120 to R124) and their legality (R119, R127 to R130, R136, R137,
R139, R141, R150, R252). -/

namespace Sys2Proof.Machine

/-- A stage slot (R121). -/
structure Stage where
  op : Nat
  fn : Nat
  b : Nat
  c : Nat
deriving DecidableEq, Repr

/-- A stream descriptor (R123). -/
structure Strm where
  en : Bool
  coil : Bool
  code : Nat
  layout : Nat
  panel : Nat
  tap : Nat
  base : Nat
  stride : Nat
deriving DecidableEq, Repr

/-- The format of a stream. -/
def Strm.fmt (d : Strm) : Fmt := (Fmt.ofCode d.code).getD .s8
/-- The coil a coil stream names. -/
def Strm.coilNo (d : Strm) : Nat := d.base % 16
/-- An enabled coil stream. -/
def Strm.onCoil (d : Strm) : Bool := d.en && d.coil
/-- An enabled SRAM stream. -/
def Strm.onSram (d : Strm) : Bool := d.en && !d.coil

/-- A chain record as fields (R120). -/
structure VRec where
  type_ : Nat
  waitEn : Bool
  sigEn : Bool
  replay : Bool
  stoch : Bool
  chain : Nat
  imm16 : Bool
  rows : Nat
  rowLen : Nat
  tag : Nat
  tensor : Nat
  /-- The occupied slots, and the slots after the first empty one. -/
  stages : List Stage
  rest : List Stage
  streams : List Strm
  imm : List Nat
  waitAddr : Nat
  waitValue : Int
  sigAddr : Nat
  sigAdd : Nat
  seed : Nat
deriving DecidableEq, Repr

/-- Bits [hi:lo] of the words of a record from word w on, taken as one number. -/
def spanBits (l : List Word) (w n hi lo : Nat) : Nat :=
  bits (leNat (((l.drop w).take n).flatMap fun x => leBytes 8 x.toNat)) hi lo

/-- Slot s of a record. -/
def stageOf (l : List Word) (s : Nat) : Stage :=
  let v := spanBits l 2 2 (16 * s + 15) (16 * s)
  ⟨bits v 3 0, bits v 7 4, bits v 11 8, bits v 15 12⟩

/-- Stream s of a record: IN0, IN1, IN2, OUT0, OUT1. -/
def strmOf (l : List Word) (s : Nat) : Strm :=
  let v := spanBits l 4 4 (48 * s + 47) (48 * s)
  ⟨bit v 0, bit v 1, bits v 5 2, bits v 8 6, bits v 10 9, bits v 13 11, bits v 31 14, bits v 47 32⟩

/-- The fields of a record. (DEDUCED, log entry 27) -/
def VRec.of (l : List Word) : VRec :=
  let r := wordBits l
  let all := (upto 8).map (stageOf l)
  { type_ := r 0 3 0, waitEn := r 0 4 4 == 1, sigEn := r 0 5 5 == 1, replay := r 0 6 6 == 1
    stoch := r 0 7 7 == 1, chain := r 0 9 8, imm16 := r 0 10 10 == 1, rows := r 0 35 16, rowLen := r 0 51 36
    tag := r 1 15 0, tensor := r 1 47 16
    stages := all.takeWhile fun s => s.op != 0
    rest := all.dropWhile fun s => s.op != 0
    streams := (upto 5).map (strmOf l)
    imm := (upto 4).map fun i => r (8 + i) 63 0
    waitAddr := r 12 51 0, waitValue := (nth 0 l 13).signed, sigAddr := r 14 51 0, sigAdd := r 14 63 52
    seed := r 15 63 0 }

/-- Reserved bits of a record (R120). -/
def vxReserved (l : List Word) : Bool :=
  let r := wordBits l
  r 0 15 11 != 0 || r 0 63 52 != 0 || r 1 63 48 != 0 || spanBits l 4 4 255 240 != 0 || r 12 63 52 != 0
    || (r 0 7 7 == 0 && r 15 63 0 != 0)

/-- An absent stream. -/
def noStrm : Strm := ⟨false, false, 0, 0, 0, 0, 0, 0⟩
/-- An empty slot. -/
def noStage : Stage := ⟨0, 0, 0, 0⟩

namespace VRec

/-- Stream i. -/
def strm (r : VRec) (i : Nat) : Strm := nth noStrm r.streams i
/-- Stage i. -/
def stage (r : VRec) (i : Nat) : Stage := nth noStage r.stages i
/-- The chain format. -/
def fmt (r : VRec) : Fmt :=
  if r.chain = 0 then .fp32 else if r.chain = 1 then .bf16 else if r.chain = 2 then .fp16 else .s32
/-- An INT chain. -/
def int (r : VRec) : Bool := r.chain == 3
/-- The first slot that holds an operation. -/
def slotOf (r : VRec) (op : Nat) : Option Nat := (upto r.stages.length).find? fun i => (r.stage i).op == op
/-- INDEX_BASE (R124). -/
def indexBase (r : VRec) : Nat := nth 0 r.imm 3

end VRec

/-- An escaped CVT target. -/
def cvtEscaped (g : Stage) : Bool := g.op == 4 && (g.fn == 9 || g.fn == 10)
/-- A CVT with an S4, S8, S16 or S32 target. -/
def cvtInt (g : Stage) : Bool := g.op == 4 && decide (5 ≤ g.fn) && decide (g.fn ≤ 8)
/-- The function number of an SFU slot (R148). -/
def sfuNumber (g : Stage) : Nat := 16 * g.c + g.fn

/-- Is the SFU slot in the gated form with the bias-pair stream (R149)? -/
def gatedSlot (r : VRec) : Option Nat :=
  match r.slotOf 5 with
  | some i => if decide (128 ≤ sfuNumber (r.stage i)) && (r.strm 2).en then some i else none
  | none => none

/-- Buffering stages in slot order: 0 RED replay, 1 CVT ROWMAX, 2 escaped CVT, 3 MASK (R128). -/
def buffering (r : VRec) : List Nat :=
  r.stages.filterMap fun g =>
    if g.op = 6 ∧ r.replay then some 0
    else if cvtInt g ∧ g.c = 7 then some 1
    else if cvtEscaped g then some 2
    else if g.op = 10 then some 3 else none

/-- Rows that pass together: 4 for MASK, 16 for an escaped CVT (R137, R141). -/
def groupRows (r : VRec) : Nat :=
  let b := buffering r
  if b.contains 3 then 4 else if b.contains 2 then 16 else 1

/-- The limits of R129, R137 and R141. A pair of buffering stages that R129 does not list is rejected (DESIGN CHOICE, log
entry 69). -/
def bufferingBad (r : VRec) : Bool :=
  let b := buffering r
  let n := r.rowLen
  if b = [] then false
  else if b = [0] ∨ b = [1] then decide (n > 2048)
  else if b = [0, 1] then decide (n > 1024)
  else if b = [2] then r.rows % 16 != 0 || n % 16 != 0 || decide (n > 128)
  else if b = [3] then r.rows % 4 != 0 || n % 4 != 0 || decide (n > 512)
  else true

/-- SCALAR input streams. -/
def scalarIns (r : VRec) : List Nat := (upto 3).filter fun i => (r.strm i).en && (r.strm i).layout == 2

/-- Has slot i a source of S0 and S1 (R130)? -/
def scalarsAt (r : VRec) (i : Nat) : Bool :=
  !(scalarIns r).isEmpty || match r.slotOf 6 with
    | some k => r.replay && decide (k < i)
    | none => false

/-- An operand code of slot i outside R122, R124 or R130. -/
def operandBad (r : VRec) (i code : Nat) : Bool :=
  if 1 ≤ code ∧ code ≤ 3 then !(r.strm (code - 1)).en || (r.strm (code - 1)).layout != 0
  else if code = 4 ∨ code = 5 then !scalarsAt r i
  else if code = 7 then r.stoch
  else if 14 ≤ code then r.stoch && !r.imm16
  else false

/-- Is stream code (1 to 3) enabled, with a layout and, where given, a format? -/
def streamIs (r : VRec) (code layout : Nat) (fmt : Option Nat) : Bool :=
  let d := r.strm (code - 1)
  d.en && d.layout == layout && match fmt with
    | some f => d.code == f
    | none => true

/-- A stage outside its own rules (R125, R134, R136, R139, R148 to R150). An FN code that the stage table does not list is
a reserved encoding (DESIGN CHOICE, log entry 69). -/
def stageBad (r : VRec) (i : Nat) : Bool :=
  let g := r.stage i
  let op1 := operandBad r i
  match g.op with
  | 1 => decide (2 < g.fn) || op1 g.b || op1 g.c
  | 2 => decide (6 < g.fn) || (decide (g.fn < 5) && op1 g.b)
  | 3 => decide (6 < g.fn) || op1 g.b
  | 4 =>
    if g.fn < 5 then g.b != 0 || g.c != 0
    else if g.fn ≤ 8 then
      decide (3 < g.b) || (g.b != 0 && !streamIs r g.b 0 (some 6))
        || (if 1 ≤ g.c ∧ g.c ≤ 3 then !streamIs r g.c 3 none
            else if 8 ≤ g.c then op1 g.c else !(g.c == 0 || g.c == 7))
    else if g.fn ≤ 10 then g.c != 0 || g.b == 0 || decide (3 < g.b) || !streamIs r g.b 0 (some 6)
    else true
  | 5 =>
    let f := sfuNumber g % 128
    f == 0 || (decide (16 ≤ f) && decide (f < 64)) || (decide (128 ≤ sfuNumber g) && g.b == 0)
      || (g.b != 0 && op1 g.b)
      || (gatedSlot r == some i && (g.b == 3 || (r.strm 2).layout != 0))
  | 6 => decide (7 < g.fn) || decide (2 < g.c) || (g.c == 1 && (decide (g.b < 8) || op1 g.b))
  | 7 => decide (2 < g.fn) || !scalarsAt r i
  | 8 => decide (1 < g.fn) || (g.fn == 1 && (g.b == 0 || decide (3 < g.b) || !streamIs r g.b 0 none))
  | 9 =>
    let along := bit g.fn 2
    g.fn % 4 == 3 || (g.fn % 4 == 2 && op1 g.b)
      || (if 1 ≤ g.c ∧ g.c ≤ 3 then !streamIs r g.c (if along then 2 else 0) none
          else !(g.c == 0 || g.c == 7))
      || (bit g.fn 3 && decide ((if along then r.rows else r.rowLen) > 2048))
  | 10 => decide (1 < g.fn)
  | _ => true

/-- Input streams that slot i names, with 6 for the position operand. -/
def namedBy (r : VRec) (i : Nat) : List Nat :=
  let g := r.stage i
  let op1 (code : Nat) : List Nat := if 1 ≤ code ∧ code ≤ 3 then [code - 1] else if code = 6 then [6] else []
  match g.op with
  | 1 => op1 g.b ++ op1 g.c
  | 2 => if g.fn < 5 then op1 g.b else []
  | 3 => op1 g.b
  | 4 => (if 1 ≤ g.b ∧ g.b ≤ 3 then [g.b - 1] else []) ++ (if 5 ≤ g.fn ∧ 1 ≤ g.c ∧ g.c ≤ 3 then [g.c - 1] else [])
  | 5 => (if g.b = 0 then [] else op1 g.b) ++ (if gatedSlot r = some i then [2] else [])
  | 8 => if g.fn = 1 then [g.b - 1] else []
  | 9 => (if g.fn % 4 = 2 then op1 g.b else []) ++ (if 1 ≤ g.c ∧ g.c ≤ 3 then [g.c - 1] else [])
  | _ => []

/-- Bytes of weight tile of an escaped target. -/
def escTile (g : Stage) : Nat := if g.fn = 9 then 128 else 256

/-- The alignment unit of a stream's layout (R127). -/
def layoutUnit (d : Strm) : Nat :=
  match d.layout with
  | 0 => max 1 (d.fmt.width / 8)
  | 1 => 64
  | 2 => 8
  | 4 => if d.fmt.width = 4 then 128 else 256
  | 5 => 64
  | _ => 1

/-- Elements of a row of an input stream. -/
def rowElems (r : VRec) (i : Nat) : Nat := if i = 2 ∧ (gatedSlot r).isSome then 2 * r.rowLen else r.rowLen

/-- Bytes of a stream's extent from its base (R123, R75). -/
def streamExtent (r : VRec) (i : Nat) : Nat :=
  let d := r.strm i
  match d.layout with
  | 0 => (r.rows - 1) * (4 * d.stride) + d.fmt.bytes (rowElems r i)
  | 1 =>
    let e := 2 ^ d.panel
    let lines := 512 / (e * d.fmt.width)
    ((r.rows - 1) / lines * (r.rowLen / e) + r.rowLen / e) * 64
  | 2 => 8 * r.rows
  | 3 => r.rows
  | 4 => (r.rows / 16) * (r.rowLen / 16) * layoutUnit d
  | 5 => (r.rows / 16) * (r.rowLen / 16) * 128
  | _ => (r.rows / 4) * (r.rowLen / 4)

/-- A reserved encoding in a stream descriptor, enabled or not (R7, R123). -/
def strmReserved (d : Strm) : Bool := decide (10 < d.code) || d.panel == 3 || d.layout == 7

/-- An input stream outside R122, R123 or R252. -/
def inputBad (r : VRec) (i : Nat) : Bool :=
  let d := r.strm i
  strmReserved d || d.en && (d.tap != 0 || !(d.layout == 0 || d.layout == 2 || d.layout == 3)
    || (d.layout == 2 && d.code != 0) || (d.layout == 3 && d.code != 6) || (i == 0 && d.layout != 0))

/-- An output stream outside R119, R123, R136, R137 or R141. -/
def outputBad (r : VRec) (i : Nat) : Bool :=
  let d := r.strm i
  let g := r.stage d.tap
  strmReserved d || d.en && (decide (r.stages.length ≤ d.tap)
    || !(match d.layout with
      | 0 => decide (d.code < 5) || (g.op == 4 && g.fn == d.code)
      | 1 => g.op == 4 && (g.fn == 5 || g.fn == 6) && d.code == g.fn && r.rowLen % (16 * 2 ^ d.panel) == 0 && !d.coil
      | 2 => d.code == 0 && (g.op == 6 || (g.op == 8 && g.fn == 0))
      | 3 => d.code == 6 && cvtInt g
      | 4 => cvtEscaped g && d.code == g.fn && !d.coil
      | 5 => cvtEscaped g && !d.coil
      | 6 => d.code == 6 && g.op == 10
      | _ => false))

/-- TILE and SIDELIST go with an escaped CVT, one of each (R137). -/
def tilesBad (r : VRec) : Bool :=
  let n (l : Nat) : Nat := ([3, 4].filter fun i => (r.strm i).en && (r.strm i).layout == l).length
  if (buffering r).contains 2 then n 4 != 1 || n 5 != 1 else n 4 != 0 || n 5 != 0

/-- Coil streams outside R252. -/
def coilStreamsBad (s : State) (c : Nat) (r : VRec) : Bool :=
  let used := (upto 5).filter fun i => (r.strm i).onCoil
  used.any (fun i =>
    let k := (r.strm i).coilNo
    !coilLive s c k || (if i < 3 then coilCons s c k != 0 else coilProd s c k != 0))
  || (used.map fun i => (r.strm i).coilNo).eraseDups.length != used.length

/-- SRAM extents outside the core's SRAM, misaligned, or with an output on an input (R127). -/
def extentsBad (r : VRec) : Bool :=
  let used := (upto 5).filter fun i => (r.strm i).onSram
  used.any (fun i =>
    let d := r.strm i
    d.base % layoutUnit d != 0 || decide (d.base + streamExtent r i > 0x40000))
  || used.any fun o => decide (3 ≤ o) && used.any fun i => decide (i < 3)
      && overlaps (r.strm o).base (streamExtent r o) (r.strm i).base (streamExtent r i)

/-- The carry a record leaves: its own where it keeps one (R139). -/
def keptBy (r : VRec) (before : Option (Bool × Nat)) : Option (Bool × Nat) :=
  match r.slotOf 9 with
  | some i =>
    let g := r.stage i
    if bit g.fn 3 then some (bit g.fn 2, if bit g.fn 2 then r.rows else r.rowLen) else before
  | none => before

/-- Does the record name a held carry that is not there for it? -/
def carryBad (r : VRec) (held : Option (Bool × Nat)) : Bool :=
  match r.slotOf 9 with
  | some i =>
    let g := r.stage i
    g.c == 7 && held != some (bit g.fn 2, if bit g.fn 2 then r.rows else r.rowLen)
  | none => false

/-- Too many stages of a kind, or a kind the chain format does not allow (R127). -/
def kindsBad (r : VRec) : Bool :=
  let n (op : Nat) : Nat := (r.stages.filter fun g => g.op == op).length
  r.stages.isEmpty || decide (2 < n 1) || decide (1 < n 5) || decide (1 < n 6) || decide (1 < n 9)
    || decide (1 < n 8) || decide (1 < n 10)
    || (r.int && r.stages.any fun g => g.op == 1 || g.op == 5 || g.op == 6 || g.op == 7 || g.op == 9 || g.op == 10)
    || (decide (0 < n 10) && r.chain != 0)

/-- Streams or the position named after a compressing CMPX, or IN2 named beside the bias pair (R127,
R150). -/
def namesBad (r : VRec) : Bool :=
  let slots := upto r.stages.length
  (match slots.find? fun i => (r.stage i).op == 8 && (r.stage i).fn == 0 with
    | some k => slots.any fun i => decide (k < i) && !(namedBy r i).isEmpty
    | none => false)
  || match gatedSlot r with
    | some k => slots.any fun i => i != k && (namedBy r i).contains 2
    | none => false

/-- VECTOR_FORMAT: does the record break a rule of R127? `held` is the carry that the records ahead of it
leave. -/
def vxFormatBad (s : State) (c : Nat) (l : List Word) (held : Option (Bool × Nat)) : Bool :=
  let r := VRec.of l
  r.type_ != 2 || vxReserved l || r.rows == 0 || r.rowLen == 0 || kindsBad r
    || r.rest.any (fun g => g != noStage)
    || (r.imm16 && (r.chain == 0 || r.chain == 3))
    || !(r.strm 0).en || (upto 3).any (inputBad r) || [3, 4].any (outputBad r)
    || (upto r.stages.length).any (stageBad r)
    || decide (1 < (scalarIns r).length) || ((r.slotOf 6).isSome && r.replay && !(scalarIns r).isEmpty)
    || bufferingBad r || tilesBad r || namesBad r || carryBad r held
    || coilStreamsBad s c r || extentsBad r
    || (r.waitEn && !isOwnAlias s r.waitAddr) || (r.sigEn && (!isAlias r.sigAddr || r.sigAdd == 0))

end Sys2Proof.Machine
end

