-- ==== Sys2Proof/Machine/VectorRow.lean ====
section
/-! DEFINITION. What a chain computes on its rows (R118, R119, R122, R124 to R126, R128, R131 to R141, R149,
R151, R55, R112): every stage over the rows of a group, and what its outputs take at their taps. Nothing here
touches the state of the machine. -/

namespace Sys2Proof.Machine

/-- A row in the chain: its number, its elements as chain-format bits with their predicates, the input rows in
the chain format and as raw codes, the row scalars, RED's results, the exponent of its CVT, the bits of its
last CVT and the active count of its last compress. -/
structure VRow where
  r : Nat
  els : List (Nat × Bool)
  ins : List (List Nat)
  raws : List (List Nat)
  scal : Nat × Nat := (0, 0)
  red : Nat × Nat := (0, 0)
  ea : Int := 0
  fine : List Nat := []
  active : Nat := 0
deriving DecidableEq, Repr

/-- A row that is not there. -/
def noRow : VRow := ⟨0, [], [], [], (0, 0), (0, 0), 0, [], 0⟩

/-- A group of rows in the chain: the scan's states, elements taken from a coil that an expand reads, the
saturations counted, the side lists of its tiles (INDEX, VALUE) and the pattern indexes of its blocks. -/
structure VGroup where
  rows : List VRow
  scan : List Nat
  cur : Nat := 0
  sat : Nat := 0
  sides : List (List (Nat × Nat)) := []
  pats : List Nat := []
deriving DecidableEq, Repr

/-- A fault of the SFU: 0 empty slot, 1 parity; the row within the group and the element. -/
structure VFault where
  parity : Bool
  row : Nat
  element : Nat
deriving DecidableEq, Repr

/-! ## Values and operands -/

/-- The value of an element in the chain format. -/
def chainVal (r : VRec) (b : Nat) : FV := ofElem r.fmt b

/-- A conversion into S32 as R119 gives it. -/
def toS32 (v : FV) : Nat × Bool :=
  let (i, c) := quantize 2147483647 .rne 0 0 v
  (toBits i 32, c)

/-- One rounding into the chain format: the bits and what is counted (R118). -/
def toChain (r : VRec) (v : FV) : Nat × Nat :=
  if r.int then ((toS32 v).1, 0)
  else
    let (b, c) := toFloat r.fmt .rne v
    (b, b2n (c && r.fmt != .fp32))

/-- An input element converted into the chain format (R119, R490). An element that has the format already
keeps its bits. -/
def chainIn (r : VRec) (f : Fmt) (code : Nat) : Nat × Nat :=
  if f = r.fmt then (code, 0)
  else if r.int then
    if f.isFloat then let (b, c) := toS32 (ofFloat f code); (b, b2n c) else (toBits (ofIntFmt f code) 32, 0)
  else let (b, c) := toFloat r.fmt .rne (ofElem f code); (b, b2n c)

/-- Immediate slot i (R124). -/
def immVal (r : VRec) (i : Nat) : FV :=
  if r.imm16 then ofFloat r.fmt (bits (nth 0 r.imm (i / 4)) (16 * (i % 4) + 15) (16 * (i % 4)))
  else
    let b := bits (nth 0 r.imm (i / 2)) (32 * (i % 2) + 31) (32 * (i % 2))
    if r.int then FV.ofInt (sext b 32) else f32 b

/-- The operand that a code names for element k of a row with value a (R122). -/
def operand (r : VRec) (w : VRow) (code k a : Nat) : FV :=
  if code = 0 then chainVal r a
  else if code ≤ 3 then chainVal r (nth 0 (nth [] w.ins (code - 1)) k)
  else if code = 4 then f32 w.scal.1
  else if code = 5 then f32 w.scal.2
  else if code = 6 then FV.ofInt k
  else if code = 7 then immVal r (k % if r.imm16 then 16 else 8)
  else immVal r (code - 8)

/-- An integer operand of an INT chain. -/
def intOperand (r : VRec) (w : VRow) (code k a : Nat) : Int :=
  match operand r w code k a with
  | .fin n m e => roundInt .rne n m e
  | _ => 0

/-- An element as the row replay buffer holds it, in FP32 (R128). -/
def bufferVal (r : VRec) (b : Nat) : FV := if r.int then f32 (rne32 (chainVal r b)) else chainVal r b

/-- The rounding of a CVT for element k (R59, R60, R124). -/
def cvtMode (r : VRec) (row k : Nat) : RMode :=
  if r.stoch then .stoch (gen24 r.seed r.tensor (r.indexBase + row * r.rowLen + k)) else .rne

/-! ## Stages on one row -/

/-- Applies f to every element of a row with its position; f gives bits and what is counted. -/
def mapEls (w : VRow) (f : Nat → Nat → Bool → (Nat × Bool) × Nat) : VRow × Nat :=
  let out := (upto w.els.length).map fun k =>
    let (a, p) := nth (0, false) w.els k
    f k a p
  ({ w with els := out.map (·.1) }, (out.map (·.2)).sum)

/-- FMA (R125). -/
def fmaStage (r : VRec) (g : Stage) (w : VRow) : VRow × Nat :=
  mapEls w fun k a p =>
    let x := chainVal r a
    let b := operand r w g.b k a
    let c := operand r w g.c k a
    let v := if g.fn = 0 then (x.mul b).add c else if g.fn = 1 then (x.mul b).add c.neg else (x.neg.mul b).add c
    let (y, n) := toChain r v
    ((y, p), n)

/-- An ALU operation on exact values. -/
def aluFloat (fn : Nat) (a b : FV) : FV :=
  match fn with
  | 0 => a.add b | 1 => a.add b.neg | 2 => a.mul b | 3 => a.min' b | 4 => a.max' b
  | 5 => a.abs
  | _ => a.neg

/-- An ALU operation on integers. -/
def aluInt (fn : Nat) (a b : Int) : Int :=
  match fn with
  | 0 => a + b | 1 => a - b | 2 => a * b | 3 => min a b | 4 => max a b
  | 5 => if a < 0 then -a else a
  | _ => -a

/-- An INT chain's ALU operation with a row scalar, which is FP32: exact, rounded once and wrapped (R118). The spec states
no S32 for an infinite result or a NaN: a free value (DESIGN CHOICE, log entry 69). -/
def aluScalar (fn a : Nat) (b : FV) : Nat :=
  match aluFloat fn (FV.ofInt (sext a 32)) b with
  | .fin n m e => toBits (roundInt .rne n m e) 32
  | _ => (Config.builtin 203 a (8 * rne32 b + fn)).toNat

/-- ALU (R125); INT results wrap (R118). -/
def aluStage (r : VRec) (g : Stage) (w : VRow) : VRow × Nat :=
  let code := if g.fn < 5 then g.b else 0
  mapEls w fun k a p =>
    if r.int && (code == 4 || code == 5) then ((aluScalar g.fn a (operand r w code k a), p), 0)
    else if r.int then ((toBits (aluInt g.fn (sext a 32) (intOperand r w code k a)) 32, p), 0)
    else
      let (y, n) := toChain r (aluFloat g.fn (chainVal r a) (operand r w code k a))
      ((y, p), n)

/-- A comparison (R126): with a NaN only ne is true. -/
def compareVals (fn : Nat) (a b : FV) : Bool :=
  match fn with
  | 0 => FV.eq a b | 1 => !FV.eq a b | 2 => FV.lt a b | 3 => FV.le a b | 4 => FV.lt b a
  | _ => FV.le b a

/-- CMPSEL (R125, R126). -/
def selStage (r : VRec) (g : Stage) (w : VRow) : VRow × Nat :=
  mapEls w fun k a p =>
    let b := operand r w g.b k a
    if g.fn < 6 then ((a, compareVals g.fn (chainVal r a) b), 0)
    else if p then ((a, p), 0)
    else let (y, n) := toChain r b; ((y, p), n)

/-- The largest |x_j| × 2^p_j over the finite elements of a row (R45). -/
def rowMagnitude (l : List (FV × Int)) : FV :=
  l.foldl (fun m x => if x.1.isFin then
    let v := x.1.abs.scale x.2
    if FV.lt m v then v else m else m) FV.zero

/-- A GIVEN exponent from an immediate: its integer value, which fits a byte; the spec states none for another
value (DESIGN CHOICE, log entry 42). -/
def givenExp (r : VRec) (i : Nat) : Int :=
  let v := immVal r i
  let free : Int := sext (Config.builtin 200 (nth 0 r.imm (i / 2)) i).toNat 8
  match v with
  | .fin n m e =>
    let k := roundInt .rne n m e
    if FV.eq (FV.ofInt k) v && decide (-128 ≤ k) && decide (k ≤ 127) then k else free
  | _ => free

/-- The exponent of an integer CVT (R136, R45, R44). -/
def cvtExp (r : VRec) (g : Stage) (w : VRow) (f : Fmt) (pre : Nat → Int) : Int :=
  if g.c = 0 then 0
  else if g.c ≤ 3 then sext (nth 0 (nth [] w.raws (g.c - 1)) 0) 8
  else if g.c = 7 then
    rowMaxExp f.qmax (rowMagnitude ((upto w.els.length).map fun k =>
      (bufferVal r (nth (0, false) w.els k).1, pre k)))
  else givenExp r (g.c - 8)

/-- The S8 exponent that a stage's SRC_B stream gives element k; 0 where it names none. -/
def expOf (g : Stage) (w : VRow) (k : Nat) : Int :=
  if g.b = 0 then 0 else sext (nth 0 (nth [] w.raws (g.b - 1)) k) 8

/-- A CVT to a float format or to S4, S8, S16 or S32 (R40, R41, R45, R46, R48, R136). A result that the chain format does
not hold is rounded into it once more for the slots behind, to nearest even, and an overflow there counts too (DESIGN
CHOICE, log entry 69). -/
def cvtStage (r : VRec) (g : Stage) (w : VRow) : VRow × Nat :=
  let f := (Fmt.ofCode g.fn).getD .s8
  let val (k : Nat) : FV :=
    let b := (nth (0, false) w.els k).1
    if cvtInt g && g.c == 7 then bufferVal r b else chainVal r b
  let ea := if f.isFloat then 0 else cvtExp r g w f (expOf g w)
  let res := (upto w.els.length).map fun k =>
    if f.isFloat then
      let (b, c) := toFloat f (cvtMode r w.r k) (val k)
      let (y, n) := toChain r (ofFloat f b)
      (b, y, b2n c + n)
    else
      let (i, c) := quantize f.qmax (cvtMode r w.r k) ea (expOf g w k) (val k)
      let (y, n) := toChain r (FV.ofInt i)
      (toBits i f.width, y, b2n c + n)
  ({ w with ea := ea, fine := res.map (·.1)
            els := (upto w.els.length).map fun k => ((nth (0, 0, 0) res k).2.1, (nth (0, false) w.els k).2) },
    (res.map fun x => x.2.2).sum)

/-- NRM (R135): each rounding to FP32, then one into the chain format. -/
def nrmStage (r : VRec) (g : Stage) (w : VRow) : VRow × Nat :=
  let s0 := f32 w.scal.1
  let s1 := f32 w.scal.2
  mapEls w fun _ a p =>
    let x := chainVal r a
    let t := rne32 (if g.fn = 0 then x.mul s1 else x.add s0.neg)
    let y := if g.fn = 2 then rne32 ((f32 t).mul s1) else t
    if r.fmt = .fp32 then ((y, p), 0) else let (y, n) := toChain r (f32 y); ((y, p), n)

/-! ## RED (R131 to R134) -/

/-- The combining tree over accumulators: halves until one is left. -/
def redTree {α : Type} (d : α) (comb : α → α → α) : Nat → List α → α
  | 0, l => nth d l 0
  | n + 1, l =>
    let h := 2 ^ n
    redTree d comb n ((upto h).map fun i => comb (nth d l i) (nth d l (i + h)))

/-- A reduction over 32 accumulators (R131). (DEDUCED, log entry 31) -/
def reduce {α : Type} (ident : α) (step : α → Nat → Nat → α) (comb : α → α → α) (xs : List Nat) : α :=
  redTree ident comb 5 ((upto 32).map fun l =>
    ((upto ((xs.length + 31 - l) / 32)).foldl (fun acc i => step acc (nth 0 xs (32 * i + l)) (32 * i + l)) ident))

/-- The ARGMAX step on (value, index) (R131). -/
def argStep (acc : Nat × Option Nat) (x j : Nat) : Nat × Option Nat :=
  let v := f32 acc.1
  if acc.2.isNone || FV.lt v (f32 x) || ((f32 x).isNan && !v.isNan) then (x, some j) else acc

/-- The ARGMAX combination: the larger value, a NaN being the largest; equal values keep the lower index. -/
def argComb (a b : Nat × Option Nat) : Nat × Option Nat :=
  match a.2, b.2 with
  | none, _ => b
  | _, none => a
  | some i, some j =>
    let x := f32 a.1
    let y := f32 b.1
    let low := if i < j then a else b
    if x.isNan then (if y.isNan then low else a)
    else if y.isNan then b
    else if FV.lt y x then a else if FV.lt x y then b else low

/-- The SOFTMAX step on (m, s) (R133). -/
def softStep (acc : Nat × Nat) (x : Nat) : Nat × Nat :=
  let m := f32 acc.1
  let v := f32 x
  if v = .inf true then acc
  else if v.isNan then (f32Nan, acc.2)
  else if FV.lt m v then (x, f32Fma acc.2 (builtin 1 (f32Sub acc.1 x)) f32One)
  else (acc.1, f32Add acc.2 (builtin 1 (f32Sub x acc.1)))

/-- The SOFTMAX combination (R133). -/
def softComb (a b : Nat × Nat) : Nat × Nat :=
  if (f32 a.2).isZero then b
  else if (f32 b.2).isZero then a
  else
    let m := f32Max a.1 b.1
    (m, f32Fma a.2 (builtin 1 (f32Sub a.1 m)) (f32Mul b.2 (builtin 1 (f32Sub b.1 m))))

/-- x / n, correctly rounded. -/
def divCount (x n : Nat) : Nat := rne32 ((f32 x).div (FV.ofInt n))

/-- Mean and variance on deviations from the first element (R132). -/
def moments (xs : List Nat) : Nat × Nat :=
  let c := nth 0 xs 0
  let step (acc : Nat × Nat) (x _ : Nat) : Nat × Nat :=
    let d := f32Sub x c
    (f32Add acc.1 d, f32Fma d d acc.2)
  let (s1, s2) := reduce (0, 0) step (fun a b => (f32Add a.1 b.1, f32Add a.2 b.2)) xs
  let md := divCount s1 xs.length
  let v := f32Sub (divCount s2 xs.length) (f32Mul md md)
  (f32Add c md, if f32IsNan v then f32Nan else if FV.lt FV.zero (f32 v) then v else 0)

/-- The row scalars that a mode gives for the FP32 elements of a row and their active count. The index of the
maximum of no elements is stated by no rule (DESIGN CHOICE, log entry 43). -/
def redScalars (fn : Nat) (xs : List Nat) (count : Nat) : Nat × Nat :=
  let n := xs.length
  if fn ≤ 2 && n == 0 then (f32Nan, f32Nan)
  else match fn with
  | 0 => (reduce 0 (fun a x _ => f32Add a x) f32Add xs, 0)
  | 1 => (0, divCount (reduce 0 (fun a x _ => f32Fma x x a) f32Add xs) n)
  | 2 => moments xs
  | 3 => (reduce f32NegInf (fun a x _ => f32Max a x) f32Max xs, 0)
  | 4 => (reduce f32PosInf (fun a x _ => f32Min a x) f32Min xs, 0)
  | 5 =>
    let (v, i) := reduce (f32NegInf, none) argStep argComb xs
    (v, match i with
      | some i => f32OfInt i
      | none => (Config.builtin 202 0 0).toNat)
  | 6 => (f32OfInt count, 0)
  | _ => reduce (f32NegInf, 0) (fun a x _ => softStep a x) softComb xs

/-- RED (R131, R134): A passes; the scalars are the row's in a REPLAY chain (R130). -/
def redStage (r : VRec) (g : Stage) (w : VRow) : VRow :=
  let xs := w.els.map fun e => rne32 (chainVal r e.1)
  let (s0, s1) := redScalars g.fn xs (w.els.filter (·.2)).length
  let s1 := if g.c = 1 then builtin 6 (rne32 ((f32 s1).add (operand r w g.b 0 0)))
    else if g.c = 2 then builtin 5 s1 else s1
  { w with red := (s0, s1), scal := if r.replay then (s0, s1) else w.scal }

/-! ## CMPX (R140) and SCAN (R138, R139) -/

/-- Compress: the active elements, packed, their predicates reset. -/
def compressStage (w : VRow) : VRow :=
  let kept := w.els.filter (·.2)
  { w with els := kept.map fun e => (e.1, true), active := kept.length }

/-- Expand: elements of a packed source at the active positions, +0.0 elsewhere; and how many were taken. -/
def expandEls (src : List Nat) : List (Nat × Bool) → Nat → List (Nat × Bool) × Nat
  | [], n => ([], n)
  | (_, p) :: rest, n =>
    let (l, k) := expandEls src rest (if p then n + 1 else n)
    ((if p then nth 0 src n else 0, p) :: l, k)

/-- One scan step on FP32 states. -/
def scanStep (r : VRec) (g : Stage) (w : VRow) (h k a : Nat) : Nat :=
  let x := chainVal r a
  if g.fn % 4 = 0 then rne32 ((f32 h).add x)
  else if g.fn % 4 = 1 then rne32 ((f32 h).mul x)
  else rne32 ((x.mul (f32 h)).add (operand r w g.b k a))

/-- The identity state. -/
def scanIdent (g : Stage) : Nat := if g.fn % 4 = 1 then f32One else 0

/-- Along a row: the outputs as states, and the final state. -/
def scanAlong (r : VRec) (g : Stage) (w : VRow) : List (Nat × Bool) → Nat → Nat → List Nat × Nat
  | [], _, h => ([], h)
  | (a, _) :: rest, k, h =>
    let h := scanStep r g w h k a
    let (l, e) := scanAlong r g w rest (k + 1) h
    (h :: l, e)

/-- SCAN on one row: the row, what is counted, and the states after it. `held` are the carried states. Down
rows the states are those of the elements; along rows, the final states of the rows so far. -/
def scanStage (r : VRec) (g : Stage) (held : List Nat) (w : VRow) (states : List Nat) :
    VRow × Nat × List Nat :=
  let along := bit g.fn 2
  let ident := scanIdent g
  let fp (b : Nat) : Nat := rne32 (chainVal r b)
  let (hs, states) :=
    if along then
      let h0 := if g.c = 0 then ident else if g.c = 7 then nth ident held w.r else w.scal.1
      let (hs, e) := scanAlong r g w w.els 0 h0
      (hs, states ++ [e])
    else
      let st := if w.r ≠ 0 then states
        else if g.c = 0 then List.replicate r.rowLen ident
        else if g.c = 7 then held
        else fit ident r.rowLen ((nth [] w.ins (g.c - 1)).map fp)
      let hs := (upto w.els.length).map fun k => scanStep r g w (nth ident st k) k (nth (0, false) w.els k).1
      (hs, hs ++ st.drop hs.length)
  let out := hs.map fun h => toChain r (f32 h)
  ({ w with els := (upto out.length).map fun k => ((nth (0, 0) out k).1, (nth (0, false) w.els k).2) },
    (out.map (·.2)).sum, states)

/-! ## Groups: MASK (R112) and escaped weights (R47, R55, R137) -/

/-- |x| for MASK: NaN counts as +infinity. -/
def maskMag (b : Nat) : FV := if (f32 b).isNan then .inf false else (f32 b).abs

/-- The index of the best pattern of a block by the exact sum of what it keeps; ties go to the lowest. -/
def bestPattern (masks : List Nat) (mags : List FV) : Nat :=
  let score (m : Nat) : FV := (upto 16).foldl (fun s p => if m.testBit p then s.add (nth FV.zero mags p) else s) FV.zero
  ((upto masks.length).foldl (fun (best : Nat × Option FV) i =>
    let v := score (nth 0 masks i)
    match best.2 with
    | none => (i, some v)
    | some b => if FV.lt b v then (i, some v) else best) (0, none)).1

/-- MASK on a group of four rows. Of rows that a compress has shortened the spec states no pattern: it is a
free one, and their missing positions stay missing (DESIGN CHOICE, log entry 44). -/
def maskStage (r : VRec) (g : Stage) (rows : List VRow) : List VRow × List Nat :=
  let masks := legalMasks (classK (g.fn + 1))
  let whole := rows.all fun w => w.els.length == r.rowLen
  let el (i k : Nat) : Nat := (nth (0, false) (nth noRow rows i).els k).1
  let pats := (upto (r.rowLen / 4)).map fun h =>
    if whole then bestPattern masks ((upto 16).map fun p => maskMag (el (p / 4) (4 * h + p % 4)))
    else (Config.builtin 201 ((nth noRow rows 0).r) h).toNat % masks.length
  let rows := (upto rows.length).map fun i =>
    let w := nth noRow rows i
    { w with els := (upto w.els.length).map fun k =>
        let (a, p) := nth (0, false) w.els k
        (if (nth 0 masks (nth 0 pats (k / 4))).testBit (4 * i + k % 4) then a else 0, p) }
  (rows, pats)

/-- An escape candidate: its magnitude, INDEX, row within the group, column, FP32 bits. -/
structure Cand where
  mag : FV
  index : Nat
  row : Nat
  col : Nat
  val : Nat
deriving DecidableEq, Repr

/-- The escape of a weight format: its code. -/
def escOf (f : Fmt) : Nat := if f.width = 4 then 8 else 0x80

/-- An escaped CVT on a group of 16 rows, as the replay buffer holds them: codes and chain values, side lists tile by tile
(R55, R128). -/
def escStage (r : VRec) (g : Stage) (rows : List VRow) : List VRow × List (List (Nat × Nat)) × Nat :=
  let f := (Fmt.ofCode g.fn).getD .s8x
  let cells := (upto rows.length).flatMap fun i =>
    let w := nth noRow rows i
    (upto w.els.length).map fun k =>
      let v := bufferVal r (nth (0, false) w.els k).1
      let (q, c) := quantize f.qmax (cvtMode r w.r k) (expOf g w k) 0 v
      (i, k, q, c, v)
  let cand := cells.filterMap fun x =>
    let (i, k, _, c, v) := x
    if c && v.isFin then some (⟨v.abs, 16 * i + k % 16, i, k, rne32 v⟩ : Cand) else none
  let first (a b : Cand) : Bool := FV.lt b.mag a.mag || (FV.eq b.mag a.mag && decide (a.index ≤ b.index))
  let inTile (t : Nat) : List Cand := sortBy first (cand.filter fun x => x.col / 16 == t)
  let chosen := (upto (r.rowLen / 16)).map fun t => (inTile t).take 16
  let esc (i k : Nat) : Bool := (nth [] chosen (k / 16)).any fun x => x.row == i && x.col == k
  let rows := (upto rows.length).map fun i =>
    let w := nth noRow rows i
    let mine := cells.filter fun x => x.1 == i
    let fine := mine.map fun x => if esc i x.2.1 then escOf f else toBits x.2.2.1 f.width
    { w with fine := fine
             els := (upto w.els.length).map fun k =>
              ((toChain r (FV.ofInt (ofIntFmt f (nth 0 fine k)))).1, (nth (0, false) w.els k).2) }
  let sides := chosen.map fun l => sortBy (fun a b => decide (a.1 ≤ b.1)) (l.map fun x => (x.index, x.val))
  (rows, sides, (cells.filter fun x => x.2.2.2.1 && !esc x.1 x.2.1).length)

/-! ## SFU (R149, R151, R165) -/

/-- An SFU stage on one element: the FP32 result. -/
def sfuElement (u : Sfu) (r : VRec) (i : Nat) (w : VRow) (k a : Nat) : Except SfuFault Nat :=
  let g := r.stage i
  let pair (j : Nat) : FV := if gatedSlot r = some i then chainVal r (nth 0 (nth [] w.ins 2) (2 * k + j)) else FV.zero
  sfuStage u (sfuNumber g) (chainVal r a) (if g.b = 0 then none else some (operand r w g.b k a)) (pair 0) (pair 1)
    (immVal r 5)

/-- An SFU stage on the elements of a row from position k on. `parity` counts down to the element at whose
evaluation a parity error of a user function's memory is found. -/
def sfuRow (u : Sfu) (r : VRec) (i rowNo : Nat) (w : VRow) :
    List (Nat × Bool) → Nat → Option Nat → Except VFault (List (Nat × Bool) × Nat × Option Nat)
  | [], _, p => .ok ([], 0, p)
  | (a, pr) :: rest, k, p =>
    match sfuElement u r i w k a with
    | .error _ => .error ⟨false, rowNo, k⟩
    | .ok y =>
      if p = some 0 ∧ 0x40 ≤ sfuNumber (r.stage i) % 128 then .error ⟨true, rowNo, k⟩
      else
        let (b, n) := if r.fmt = .fp32 then (y, 0) else toChain r (f32 y)
        match sfuRow u r i rowNo w rest (k + 1) (p.map (· - 1)) with
        | .error e => .error e
        | .ok (l, m, q) => .ok ((b, pr) :: l, n + m, q)

/-- An SFU stage on the rows of a group. -/
def sfuRows (u : Sfu) (r : VRec) (i : Nat) : List VRow → Nat → Option Nat → Except VFault (List VRow × Nat)
  | [], _, _ => .ok ([], 0)
  | w :: rest, n, p =>
    match sfuRow u r i n w w.els 0 p with
    | .error e => .error e
    | .ok (els, c, q) =>
      match sfuRows u r i rest (n + 1) q with
      | .error e => .error e
      | .ok (l, m) => .ok ({ w with els := els } :: l, c + m)

/-! ## The chain -/

/-- A stage that works row by row. -/
def rowStage (r : VRec) (g : Stage) (w : VRow) : VRow × Nat :=
  match g.op with
  | 1 => fmaStage r g w
  | 2 => aluStage r g w
  | 3 => selStage r g w
  | 4 => cvtStage r g w
  | 6 => (redStage r g w, 0)
  | 7 => nrmStage r g w
  | _ => (compressStage w, 0)

/-- Stage i on the rows of a group. `held` are the carried states, `packed` tells that the expand source is a
coil, whose elements are taken across rows. -/
def stageGroup (u : Sfu) (r : VRec) (held : List Nat) (packed : Bool) (parity : Option Nat) (i : Nat)
    (v : VGroup) : Except VFault VGroup :=
  let g := r.stage i
  if g.op = 5 then
    match sfuRows u r i v.rows 0 parity with
    | .error e => .error e
    | .ok (rows, n) => .ok { v with rows := rows, sat := v.sat + n }
  else if g.op = 10 then
    let (rows, pats) := maskStage r g v.rows
    .ok { v with rows := rows, pats := pats }
  else if cvtEscaped g then
    let (rows, sides, n) := escStage r g v.rows
    .ok { v with rows := rows, sides := sides, sat := v.sat + n }
  else if g.op = 9 then
    .ok (v.rows.foldl (fun (x : VGroup) w =>
      let (w, n, st) := scanStage r g held w x.scan
      { x with rows := x.rows ++ [w], sat := x.sat + n, scan := st }) { v with rows := [] })
  else if g.op = 8 ∧ g.fn = 1 then
    .ok (v.rows.foldl (fun (x : VGroup) w =>
      let els := fit (0, false) r.rowLen w.els
      let (l, n) := expandEls (nth [] w.ins (g.b - 1)) els (if packed then x.cur else 0)
      { x with rows := x.rows ++ [{ w with els := l }]
               cur := if packed then (if (r.strm (g.b - 1)).fmt.width = 4 then n + n % 2 else n) else x.cur })
      { v with rows := [] })
  else
    let out := v.rows.map (rowStage r g)
    .ok { v with rows := out.map (·.1), sat := v.sat + (out.map (·.2)).sum }

/-- The chain over a group: the group after each slot, first slot first. -/
def chainGroup (u : Sfu) (r : VRec) (held : List Nat) (packed : Bool) (parity : Option Nat) :
    List Nat → VGroup → Except (Nat × VFault) (List VGroup)
  | [], _ => .ok []
  | i :: rest, v =>
    match stageGroup u r held packed parity i v with
    | .error e => .error (i, e)
    | .ok v =>
      match chainGroup u r held packed parity rest v with
      | .error e => .error e
      | .ok l => .ok (v :: l)

/-! ## What an output takes at its tap (R119, R123, R136, R137) -/

/-- The codes of a row at a tap in the format of a stream, and what is counted. -/
def outCodes (r : VRec) (d : Strm) (w : VRow) : List Nat × Nat :=
  let g := r.stage d.tap
  let f := d.fmt
  if g.op = 4 ∧ g.fn = d.code then (w.fine, 0)
  else if f = r.fmt then (w.els.map (·.1), 0)
  else
    let out := w.els.map fun e => toFloat f .rne (chainVal r e.1)
    (out.map (·.1), (out.filter (·.2)).length)

/-- Codes packed into bytes, the pad nibble zero (R245). -/
def packCodes (f : Fmt) (l : List Nat) : List Byte :=
  if f.width = 4 then (chunks 1 l.length l).map fun c => BitVec.ofNat 8 (nth 0 c 0 % 16 + 16 * (nth 0 c 1 % 16))
  else l.flatMap fun x => leBytes (f.width / 8) x

/-- The codes of packed bytes. -/
def unpackCodes (f : Fmt) (n : Nat) (bs : List Byte) : List Nat :=
  if f.width = 4 then (bs.flatMap fun b => [b.toNat % 16, b.toNat / 16]).take n
  else (chunks (f.width / 8 - 1) n bs).map leNat

/-- A side list as its 128 B block (R53). -/
def sideBlock (l : List (Nat × Nat)) : List Byte :=
  (fit 0xFFFF 16 (l.map fun e => e.2 * 2 ^ 32 + e.1)).flatMap (leBytes 8)

end Sys2Proof.Machine
end

