-- ==== Sys2Proof/Machine/Vector.lean ====
section
/-! DEFINITION. The vector engine: taking, starting and completing chain records (R127, R139, R143, R251), the
passage of rows with the streams they read and write (R123, R128, R137, R245, R251), holds at coils (R251),
faults (R145, R254) and status (R146). -/

namespace Sys2Proof.Machine

/-- The vector engine of core c replaced. -/
def State.setVec (s : State) (c : Nat) (v : VecEng) : State := s.setCore c { s.core c with vec := v }

/-- DONE of the vector port rises by n. -/
def vxDone (c n : Nat) (s : State) : State :=
  let x := s.core c
  s.setCore c { x with vx := x.vx.finish n }

/-- An event of the vector engine with detail TAG. -/
def vxEvent (c code tag pos : Nat) (s : State) : State := raiseEv (.core c) code (detTag tag 2 0 pos) s

/-! ## Carry (R139) -/

/-- Direction and length of a carry. -/
def carryKey (k : Option Carry) : Option (Bool × Nat) := k.map fun k => (k.along, k.states.length)

/-- The carry that the records ahead of the coil's head leave. -/
def heldAhead (v : VecEng) : Option (Bool × Nat) :=
  match v.run with
  | some x => if v.halt then none else keptBy (VRec.of x.words) (carryKey v.carry)
  | none => carryKey v.carry

/-- The carry that stands as a record's last row leaves SCAN. -/
def carryAfter (r : VRec) (scan : List Nat) (before : Option Carry) : Option Carry :=
  match r.slotOf 9 with
  | some i => if bit (r.stage i).fn 3 then some ⟨bit (r.stage i).fn 2, scan⟩ else before
  | none => before

/-! ## Faults (R145, R254) -/

/-- CORE_VX_FAULT below VALID. -/
def vxFaultWord (row element slot tag : Nat) : Nat :=
  fld row 62 43 + fld element 42 27 + fld slot 26 24 + fld tag 15 0

/-- The bytes of a row of an output in SRAM, or of its group for TILE, SIDELIST and PATTERN: offset and
length of each piece. -/
def rowPieces (r : VRec) (d : Strm) (row : Nat) : List (Nat × Nat) :=
  let nt := r.rowLen / 16
  match d.layout with
  | 0 => [(d.base + row * (4 * d.stride), d.fmt.bytes r.rowLen)]
  | 2 => [(d.base + 8 * row, 8)]
  | 3 => [(d.base + row, 1)]
  | 4 => [(d.base + row / 16 * nt * layoutUnit d, nt * layoutUnit d)]
  | 5 => [(d.base + row / 16 * nt * 128, nt * 128)]
  | _ => [(d.base + row / 4 * (r.rowLen / 4), r.rowLen / 4)]

/-- The place of element k of a row in a PANEL output, counted in elements from BASE (R75). -/
def panelPlace (r : VRec) (d : Strm) (row k : Nat) : Nat :=
  let e := 2 ^ d.panel
  let lines := 512 / (e * d.fmt.width)
  512 / d.fmt.width * (row / lines * (r.rowLen / e) + k / e) + row % lines * e + k % e

/-- Writes one element of a PANEL output: its byte, or its nibble. -/
def panelWrite (c : Nat) (r : VRec) (d : Strm) (row k code : Nat) (s : State) : State :=
  let p := panelPlace r d row k
  if d.fmt.width = 4 then
    let off := d.base + p / 2
    let old := leNat (s.mem.read (sramAddr c off) 1)
    let new := if p % 2 = 0 then old / 16 * 16 + code % 16 else code % 16 * 16 + old % 16
    sramWrite c off (leBytes 1 new) s
  else sramWrite c (d.base + p) (leBytes 1 code) s

/-- A PANEL row becomes undefined. -/
def panelUndefined (c : Nat) (r : VRec) (d : Strm) (row : Nat) (s : State) : State :=
  (upto r.rowLen).foldl (fun s k =>
    let (v, s) := s.draw 8
    panelWrite c r d row k v s) s

/-- The outputs of rows become undefined in SRAM (R145). -/
def rowsUndefined (c : Nat) (r : VRec) (first n : Nat) (s : State) : State :=
  [3, 4].foldl (fun s o =>
    let d := r.strm o
    if !d.onSram then s
    else (upto n).foldl (fun s j =>
      if d.layout = 1 then panelUndefined c r d (first + j) s
      else if 4 ≤ d.layout && j != 0 then s
      else each (rowPieces r d (first + j)) (fun x s => sramUndefined c x.1 x.2 s) s) s) s

/-- The engine stops at a row, element and slot of the record that runs: the carry is discarded, a partly
written coil entry dropped. -/
def vxFault (c row element slot : Nat) (s : State) : State :=
  let v := (s.core c).vec
  let tag := v.tag
  s.setVec c { v with
    halt := true, carry := none, fault := some (vxFaultWord row element slot tag)
    run := v.run.map fun x => { x with out := [], hold := none, late := false } }

/-! ## Taking a record (R127, R143) -/

/-- A record is rejected: VECTOR_FORMAT, DONE. -/
def vxReject (c tag : Nat) (s : State) : State := vxEvent c evVectorFormat tag 0 (vxDone c 1 s)

/-- Can the head record of the coil be taken? -/
def vxTakeDue (s : State) (c : Nat) : Bool :=
  let x := s.core c
  x.vec.staged.isNone && !x.vec.halt && !x.vx.coil.isEmpty

/-- The engine takes the head record and checks it. -/
def vxTake (c : Nat) (s : State) : State :=
  let x := s.core c
  match x.vx.coil with
  | [] => s
  | w :: _ =>
    let s := recordBoundary c s
    let s := s.setCore c { s.core c with vx := (s.core c).vx.take 2 1 }
    let r := VRec.of w
    if vxFormatBad s c w (heldAhead x.vec) then vxReject c r.tag s
    else
      let s := s.setVec c { (s.core c).vec with staged := some w, t0 := s.now, late := false }
      if r.waitEn then registerWait c 2 (.vector c r.tag) r.waitAddr r.waitValue s else s

/-! ## Starting a record -/

/-- How the staged record's wait stands. -/
def vxWait (s : State) (c : Nat) (r : VRec) : WaitState :=
  if r.waitEn then waitState c 2 (.vector c r.tag) r.waitAddr r.waitValue s else .holds

/-- Has the staged record waited longer than ENGINE_WAIT? -/
def vxWaitOverdue (s : State) (c : Nat) : Bool :=
  let v := (s.core c).vec
  match v.staged with
  | some w => (VRec.of w).waitEn && !v.late && waitOverdue c 2 v.t0 s
  | none => false

/-- Is the engine between records, with nothing left to apply there (R163, R255)? -/
def vxBoundaryClear (s : State) (c : Nat) : Bool :=
  (s.core c).sfu.queue.isEmpty && (due s (.core c) .vector).isEmpty

/-- Can the staged record start? -/
def vxStartDue (s : State) (c : Nat) : Bool :=
  let v := (s.core c).vec
  match v.staged with
  | some w => v.run.isNone && !v.halt && vxBoundaryClear s c && vxWait s c (VRec.of w) != .notYet
  | none => false

/-- Coils that a record reads. -/
def coilsRead (r : VRec) : List Nat := ((upto 3).filter fun i => (r.strm i).onCoil).map fun i => (r.strm i).coilNo

/-- A record begins: BELAY at each coil it reads that no earlier record is reading (R251). -/
def vxBegin (c : Nat) (w : List Word) (s : State) : State :=
  let r := VRec.of w
  let v := (s.core c).vec
  let busy := match v.fin with
    | some x => coilsRead (VRec.of x.words)
    | none => []
  let began := (coilsRead r).map fun n => (n, (s.coil c n).read)
  let s := s.setVec c { v with
    staged := none, late := false, tag := r.tag, run := some { words := w, began := began }
    fin := v.fin.map fun x => { x with next := began } }
  each ((coilsRead r).filter fun n => !busy.contains n) (fun n s => belayCoil c n s) s

/-- A record whose wait has failed occupies the engine with nothing done (R26). -/
def vxOccupy (c : Nat) (w : List Word) (s : State) : State :=
  s.setVec c { (s.core c).vec with staged := none, late := false, tag := (VRec.of w).tag, run := some { words := w } }

/-- SYNC_WAIT_TIMEOUT of the staged record. -/
def vxLate (c : Nat) (s : State) : State :=
  let v := (s.core c).vec
  let tag := match v.staged with
    | some w => (VRec.of w).tag
    | none => 0
  vxEvent c evSyncWaitTimeout tag 0 (s.setVec c { v with late := true })

/-- The staged record starts. Its carry and its coils are looked at once more: a fault or a configuration may
have changed them since it was taken. -/
def vxStart (c : Nat) (s : State) : State :=
  match (s.core c).vec.staged with
  | none => s
  | some w =>
    let r := VRec.of w
    let s := if vxWaitOverdue s c then vxLate c s else s
    let s := recordBoundary c s
    match vxWait s c r with
    | .notYet => s
    | .failed code =>
      waitEvent (.vector c r.tag) r.waitAddr code (vxFault c 0 0 0 (vxOccupy c w (dropWait c 2 s)))
    | .holds =>
      let s := dropWait c 2 s
      if carryBad r (carryKey (s.core c).vec.carry) || coilStreamsBad s c r then
        vxReject c r.tag (s.setVec c { (s.core c).vec with staged := none, late := false })
      else vxBegin c w s

/-! ## Input streams (R123, R145, R245, R251) -/

/-- The SRAM offset and bytes of a row of an input stream. -/
def inPlace (r : VRec) (i row : Nat) : Nat × Nat :=
  let d := r.strm i
  match d.layout with
  | 2 => (d.base + 8 * row, 8)
  | 3 => (d.base + row, 1)
  | _ => (d.base + row * (4 * d.stride), d.fmt.bytes (rowElems r i))

/-- The slot that expands from stream i. -/
def expandsFrom (r : VRec) (i : Nat) : Option Nat :=
  (upto r.stages.length).find? fun k => (r.stage k).op == 8 && (r.stage k).fn == 1 && (r.stage k).b == i + 1

/-- Is stream i a coil of which the record takes only what an expand needs (R140, R254)? -/
def dependent (r : VRec) (i : Nat) : Bool :=
  i != 0 && (r.strm i).onCoil && match expandsFrom r i with
    | some k => !(upto r.stages.length).any fun j => j != k && (namedBy r j).contains i
    | none => false

/-- Does the record's expand take packed elements of a coil? -/
def packedExpand (r : VRec) : Bool := (upto 3).any (dependent r)

/-- Does slot k read the row scalars? -/
def readsScalars (r : VRec) (k : Nat) : Bool :=
  let g := r.stage k
  let sc (x : Nat) : Bool := x == 4 || x == 5
  match g.op with
  | 1 => sc g.b || sc g.c
  | 2 => decide (g.fn < 5) && sc g.b
  | 3 => sc g.b
  | 5 => sc g.b
  | 7 => true
  | 9 => g.fn % 4 == 2 && sc g.b
  | _ => false

/-- The lowest slot that reads stream i (R145). -/
def readerSlot (r : VRec) (i : Nat) : Nat :=
  if i = 0 then 0
  else ((upto r.stages.length).find? fun k => (namedBy r k).contains i
    || ((r.strm i).layout == 2 && readsScalars r k)).getD 0

/-- The lowest element of a row with a byte in the word at an offset (R145). -/
def badElement (r : VRec) (i row word_ : Nat) : Nat :=
  let d := r.strm i
  let k := (word_ - (inPlace r i row).1) * 8 / d.fmt.width
  if d.layout ≠ 0 then 0 else if rowElems r i ≠ r.rowLen then k / 2 else k

/-- Reads the SRAM streams of a row: their bytes, or the stream and word that failed. -/
def readStreams (c : Nat) (r : VRec) (row : Nat) : List Nat → State →
    Except (Nat × Nat) (List (List Byte)) × State
  | [], s => (.ok [], s)
  | i :: rest, s =>
    let here : Except Nat (List Byte) × State := if (r.strm i).onSram then
        let (off, n) := inPlace r i row
        sramRead c off n s
      else (.ok [], s)
    match here with
    | (.error o, s) => (.error (i, o), s)
    | (.ok bs, s) =>
      match readStreams c r row rest s with
      | (.error e, s) => (.error e, s)
      | (.ok l, s) => (.ok (bs :: l), s)

/-- Reads the SRAM streams of n rows: the bytes by row and stream, or row, stream and word that failed. -/
def readRows (c : Nat) (r : VRec) : Nat → Nat → State →
    Except (Nat × Nat × Nat) (List (List (List Byte))) × State
  | 0, _, s => (.ok [], s)
  | n + 1, row, s =>
    match readStreams c r row [0, 1, 2] s with
    | (.error (i, o), s) => (.error (row, i, o), s)
    | (.ok bs, s) =>
      match readRows c r n (row + 1) s with
      | (.error e, s) => (.error e, s)
      | (.ok l, s) => (.ok (bs :: l), s)

/-- What a coil stream can deliver: the rest of the entry in hand and every readable entry. -/
def coilSupply (s : State) (c : Nat) (x : VRun) (n : Nat) : List Byte :=
  let p := (s.coil c n).read
  aget [] n x.left ++ (upto (readable s c n)).flatMap fun j =>
    (s.core c).cmem.read (entryAddr s c n (p + j)) 64

/-- Rows of the group that starts at a row. -/
def groupSize (r : VRec) (row : Nat) : Nat := min (groupRows r) (r.rows - row)

/-- Does an input coil lack data for the rows of the group? An expand source is judged by what it took. -/
def dataShort (s : State) (c : Nat) (x : VRun) (r : VRec) : Bool :=
  (upto 3).any fun i =>
    let d := r.strm i
    d.onCoil && !dependent r i
      && decide ((coilSupply s c x d.coilNo).length < groupSize r x.row * (inPlace r i x.row).2)

/-- The bytes of stream i for row j of the group: SRAM bytes as read, or its part of the coil's supply. -/
def rowBytes (s : State) (c : Nat) (x : VRun) (r : VRec) (read : List (List (List Byte))) (j i : Nat) :
    List Byte :=
  let d := r.strm i
  if d.onCoil then
    let all := coilSupply s c x d.coilNo
    let n := (inPlace r i x.row).2
    if dependent r i then all else (all.drop (j * n)).take n
  else nth [] (nth [] read j) i

/-- The elements that so many bytes of stream i hold for a row. -/
def rowCodes (r : VRec) (i : Nat) (bs : List Byte) : List Nat :=
  let d := r.strm i
  if d.layout ≠ 0 then bs.map (·.toNat)
  else unpackCodes d.fmt (if dependent r i then bs.length * 8 / d.fmt.width else rowElems r i) bs

/-- A row as it enters the chain, and what its conversions count (R119). -/
def enterRow (r : VRec) (row : Nat) (bytes : List (List Byte)) : VRow × Nat :=
  let raws := (upto 3).map fun i => if (r.strm i).en then rowCodes r i (nth [] bytes i) else []
  let conv := (upto 3).map fun i =>
    if (r.strm i).layout = 0 then (nth [] raws i).map (chainIn r (r.strm i).fmt) else []
  let scal := match (scalarIns r).head? with
    | some i => let b := nth [] bytes i; (leNat (b.take 4), leNat ((b.drop 4).take 4))
    | none => (0, 0)
  let count := ((upto 3).map fun i => if dependent r i then 0 else ((nth [] conv i).map (·.2)).sum).sum
  let ins := conv.map fun l => l.map (·.1)
  ({ r := row, els := (nth [] ins 0).map fun b => (b, true), ins := ins, raws := raws, scal := scal }, count)

/-! ## Output streams (R119, R123, R251) -/

/-- The bytes of row j of a group at an output that goes row by row, or of the group for PATTERN, and what
is counted. -/
def outBytes (r : VRec) (d : Strm) (v : VGroup) (j : Nat) : List Byte × Nat :=
  let w := nth noRow v.rows j
  match d.layout with
  | 0 =>
    let (l, n) := outCodes r d w
    (packCodes d.fmt l, n)
  | 2 =>
    let (a, b) := if (r.stage d.tap).op = 8 then (f32OfInt w.active, 0) else w.red
    (leBytes 4 a ++ leBytes 4 b, 0)
  | 3 => (leBytes 1 (toBits w.ea 8), 0)
  | _ => if j = 0 then (v.pats.map fun p => BitVec.ofNat 8 p, 0) else ([], 0)

/-- What the outputs of a group count. -/
def outCount (r : VRec) (gs : List VGroup) : Nat :=
  ([3, 4].map fun o =>
    let d := r.strm o
    if !d.en then 0
    else
      let v := nth ⟨[], [], 0, 0, [], []⟩ gs d.tap
      ((upto v.rows.length).map fun j => (outBytes r d v j).2).sum).sum

/-- The bytes a group appends to an output coil, by output. -/
def coilOut (r : VRec) (gs : List VGroup) (o : Nat) : List Byte :=
  let d := r.strm o
  let v := nth ⟨[], [], 0, 0, [], []⟩ gs d.tap
  (upto v.rows.length).flatMap fun j => (outBytes r d v j).1

/-- Entries that a coil output completes with so many bytes. -/
def entriesOf (last : Bool) (n : Nat) : Nat := if last then cdiv n 64 else n / 64

/-- The tile of 16 rows and columns that a TILE output writes. -/
def tileBytes (f : Fmt) (v : VGroup) (o : Nat) : List Byte :=
  packCodes f ((upto 16).flatMap fun i => (upto 16).map fun j => nth 0 (nth noRow v.rows i).fine (16 * o + j))

/-- Writes a group to an SRAM output. -/
def writeSram (c : Nat) (r : VRec) (d : Strm) (v : VGroup) (s : State) : State :=
  let row := (nth noRow v.rows 0).r
  let nt := r.rowLen / 16
  match d.layout with
  | 1 => (upto v.rows.length).foldl (fun s j =>
      let w := nth noRow v.rows j
      (upto w.fine.length).foldl (fun s k => panelWrite c r d w.r k (nth 0 w.fine k) s) s) s
  | 4 => (upto nt).foldl (fun s o =>
      sramWrite c (d.base + (row / 16 * nt + o) * layoutUnit d) (tileBytes d.fmt v o) s) s
  | 5 => (upto nt).foldl (fun s o =>
      sramWrite c (d.base + (row / 16 * nt + o) * 128) (sideBlock (nth [] v.sides o)) s) s
  | _ => (upto v.rows.length).foldl (fun s j =>
      let bs := (outBytes r d v j).1
      match rowPieces r d (row + j) with
      | (off, _) :: _ => if bs.isEmpty then s else sramWrite c off bs s
      | [] => s) s

/-! ## The passage of a group -/

/-- What becomes of a group: it lacks data, it faults at row, element and slot (with the event, or
the SRAM word), or it passes, with the group after each slot. -/
inductive Passage where
  | short
  | sram (row element slot word_ : Nat)
  | sfu (row element slot code : Nat)
  | pass (groups : List VGroup) (counted : Nat)
deriving DecidableEq, Repr

/-- Bytes of stream i that the group takes from its coil. -/
def takenBytes (r : VRec) (x : VRun) (i cur : Nat) : Nat :=
  if dependent r i then (r.strm i).fmt.bytes cur else groupSize r x.row * (inPlace r i x.row).2

/-- Does an expand source lack data for a group that would pass? -/
def sourceShort (s : State) (c : Nat) (x : VRun) (r : VRec) (cur : Nat) : Bool :=
  (upto 3).any fun i => dependent r i
    && decide ((coilSupply s c x (r.strm i).coilNo).length < takenBytes r x i cur)

/-- Evaluates the next group of the record that runs. -/
def passage (c : Nat) (x : VRun) (parity : Option Nat) (s : State) : Passage × State :=
  let r := VRec.of x.words
  let n := groupSize r x.row
  if dataShort s c x r then (.short, s)
  else match readRows c r n x.row s with
    | (.error (row, i, o), s1) => (.sram row (badElement r i row o) (readerSlot r i) o, s1)
    | (.ok read, s1) =>
      let rows := (upto n).map fun j =>
        enterRow r (x.row + j) ((upto 3).map fun i => rowBytes s c x r read j i)
      let held := ((s.core c).vec.carry.map (·.states)).getD []
      let v0 : VGroup := { rows := rows.map (·.1), scan := x.scan, sat := (rows.map (·.2)).sum }
      match chainGroup (s.core c).sfu r held (packedExpand r) parity (upto r.stages.length) v0 with
      | .error (i, e) => (.sfu (x.row + e.row) e.element i (if e.parity then evSfuParity else evSfuSlotEmpty), s1)
      | .ok gs =>
        let v := nth v0 gs (r.stages.length - 1)
        if sourceShort s c x r v.cur then (.short, s)
        else
          let extra := ((upto 3).map fun i =>
            if dependent r i then
              let codes := rowCodes r i (coilSupply s c x (r.strm i).coilNo)
              ((codes.take v.cur).map fun b => (chainIn r (r.strm i).fmt b).2).sum
            else 0).sum
          (.pass gs (v.sat + extra + outCount r gs), s1)

/-- The bytes that a group takes leave a coil. -/
def takeCoil (c n k : Nat) (x : VRun) (s : State) : VRun × State :=
  let left := aget [] n x.left
  if k ≤ left.length then ({ x with left := aset n (left.drop k) x.left }, s)
  else
    let m := cdiv (k - left.length) 64
    let all := (coilSupply s c x n).take (left.length + 64 * m)
    let q := s.coil c n
    ({ x with left := aset n (all.drop k) x.left }, s.setCoil c n { q with read := advance s c n q.read m })

/-- Whole entries of what an output coil is to take are appended while it has room. -/
def drainCoil (c n : Nat) (x : VRun) (s : State) : VRun × State :=
  let all := aget [] n x.out
  let m := min (all.length / 64) (free s c n)
  (({ x with out := aset n (all.drop (64 * m)) x.out }),
    each ((chunks 63 m all).take m) (fun e s => appendEntry c n e s) s)

/-- Bytes join an output coil, the last entry filled with zeros at the record's end. -/
def putCoil (c n : Nat) (last : Bool) (bs : List Byte) (x : VRun) (s : State) : VRun × State :=
  let all := aget [] n x.out ++ bs
  drainCoil c n { x with out := aset n (if last then fit 0#8 (64 * entriesOf true all.length) all else all) x.out } s

/-- Does an output coil of the record still owe a whole entry (R251)? -/
def backlog (x : VRun) : Bool := x.out.any fun o => decide (64 ≤ o.2.length)

/-- The record goes on: it is held at an output coil that has no room for what a row left it, or its next row may pass,
or it has passed its last. (DESIGN CHOICE, log entry 68) -/
def advanceRun (c : Nat) (x : VRun) (s : State) : State :=
  let r := VRec.of x.words
  let v := (s.core c).vec
  s.setVec c (if backlog x then
      { v with run := some { x with hold := if x.hold.isSome then x.hold else some s.now } }
    else if x.row = r.rows then
      { v with run := none, fin := some { x with left := [], out := [], hold := none, late := false }
               carry := carryAfter r x.scan v.carry }
    else { v with run := some { x with hold := none, late := false } })

/-- Room has appeared at the output coils of a held record. -/
def resumeOut (c : Nat) (x : VRun) (s : State) : State :=
  let (x, s) := (x.out.map (·.1)).foldl (fun (p : VRun × State) n => drainCoil c n p.1 p.2) (x, s)
  advanceRun c x s

/-- Elements that an arithmetic cycle moves at most (R118). -/
def chainWidth (r : VRec) : Nat := if r.chain = 0 then 32 else if r.chain = 3 then 128 else 64

/-- Rows of the record enter slot 0: at most chainWidth elements a cycle, and one at least (R146; DEDUCED, log entry 66).
Of a group that faults, any part has entered. -/
def noteEntered (c : Nat) (r : VRec) (rows : Nat) (whole : Bool) (s : State) : State :=
  let k := (s.core c).vxActive
  s.setCore c { s.core c with vxActive := { k with
    lo := k.lo + (if whole then rows * cdiv r.rowLen (chainWidth r) else 0), hi := k.hi + rows * r.rowLen } }

/-- A group passes: its outputs are written, its coils move, its saturations are counted. -/
def commitGroup (c : Nat) (x : VRun) (gs : List VGroup) (counted : Nat) (s : State) : State :=
  let r := VRec.of x.words
  let n := groupSize r x.row
  let last := x.row + n == r.rows
  let final := nth ⟨[], x.scan, 0, 0, [], []⟩ gs (r.stages.length - 1)
  let ins := (upto 3).filter fun i => (r.strm i).onCoil
  let (x1, s) := ins.foldl (fun (p : VRun × State) i =>
    takeCoil c (r.strm i).coilNo (takenBytes r x i final.cur) p.1 p.2) (x, s)
  let outs := [3, 4].filter fun o => (r.strm o).onCoil
  let (x2, s) := outs.foldl (fun (p : VRun × State) o =>
    putCoil c (r.strm o).coilNo last (coilOut r gs o) p.1 p.2) (x1, s)
  let s := each ([3, 4].filter fun o => (r.strm o).onSram) (fun o s =>
    writeSram c r (r.strm o) (nth ⟨[], [], 0, 0, [], []⟩ gs (r.strm o).tap) s) s
  let s := noteEntered c r n true (saturate c counted s)
  advanceRun c { x2 with row := x.row + n, scan := final.scan, hold := none, late := false } s

/-- What becomes of a passage. A group that lacks data or room is held, and reads nothing. -/
def settlePassage (c : Nat) (x : VRun) (p : Passage × State) (before : State) : State :=
  let r := VRec.of x.words
  match p with
  | (.short, _) =>
    let v := (before.core c).vec
    if x.hold.isSome then before
    else before.setVec c { v with run := some { x with hold := some before.now, late := false } }
  | (.sram row element slot o, s) =>
    let s := noteEntered c r (groupSize r x.row) false s
    sramUncorr c o (.vector c r.tag) (rowsUndefined c r x.row (groupSize r x.row) (vxFault c row element slot s))
  | (.sfu row element slot code, s) =>
    let s := noteEntered c r (groupSize r x.row) false s
    vxEvent c code r.tag (row * 65536 + element)
      (rowsUndefined c r x.row (groupSize r x.row) (vxFault c row element slot s))
  | (.pass gs n, s) => commitGroup c x gs n s

/-- A hold that ends at or after ENGINE_WAIT is late (R183, R251). -/
def holdEnds (c : Nat) (x : VRun) (t : State) (s : State) : State :=
  let still := match (t.core c).vec.run with
    | some y => y.hold == x.hold
    | none => false
  match x.hold with
  | some t0 =>
    if !still && !x.late && s.engineWait c != 0 && s.past t0 (s.engineWait c) then
      vxEvent c evSyncWaitTimeout (s.core c).vec.tag (x.row * 65536) t
    else t
  | none => t

/-- The next group of rows passes, or what a held record owes its output coils is appended. -/
def vxRow (c : Nat) (parity : Option Nat) (s : State) : State :=
  match (s.core c).vec.run with
  | none => s
  | some x =>
    holdEnds c x (if backlog x then resumeOut c x s else settlePassage c x (passage c x parity s) s) s

/-- Is there a group to pass? The governor withholds elements where its duty is 0 (R144). -/
def vxRowDue (s : State) (c : Nat) (held : Bool) : Bool :=
  let v := (s.core c).vec
  !v.halt && s.gov.vxDuty != 0 && match v.run with
    | none => false
    | some x =>
      let r := VRec.of x.words
      x.hold.isSome == held && (x.row + groupSize r x.row != r.rows || v.fin.isNone)

/-- A held group still lacks data or room. -/
def vxHeldShort (s : State) (c : Nat) : Bool :=
  match (s.core c).vec.run with
  | none => false
  | some x => x.hold.isSome && (if backlog x then
      x.out.all fun o => decide (o.2.length < 64) || free s c o.1 == 0
    else (passage c x none s).1 == .short)

/-- Has a held row waited longer than ENGINE_WAIT (R251, R183)? -/
def vxHoldOverdue (s : State) (c : Nat) : Bool :=
  match (s.core c).vec.run with
  | none => false
  | some x => match x.hold with
    | some t0 => !x.late && s.engineWait c != 0 && s.past t0 (s.engineWait c) && vxHeldShort s c
    | none => false

/-- SYNC_WAIT_TIMEOUT of a held row, with its position (R459): once. (DESIGN CHOICE, log entry 32) -/
def vxHoldLate (c : Nat) (s : State) : State :=
  let v := (s.core c).vec
  vxEvent c evSyncWaitTimeout v.tag ((v.run.map (·.row)).getD 0 * 65536) (s.setVec c { v with run := v.run.map fun x => { x with late := true } })

/-! ## Completion and commands -/

/-- A coil that a completing record read: RELEASE and BELAY advance to where the next record began reading it (R251),
but never beyond READ, which a REWIND may have set back (R249; DESIGN CHOICE, log entry 68). -/
def vxRelease (c : Nat) (next : List (Nat × Nat)) (n : Nat) (s : State) : State :=
  let k := s.coil c n
  let z := coilSize s c n
  match alookup n next with
  | some p =>
    if ptrDiff z p k.release ≤ ptrDiff z k.read k.release then s.setCoil c n { k with release := p, belay := p }
    else releaseCoil c n s
  | none => releaseCoil c n s

/-- The record whose last row has passed completes. -/
def vxComplete (c : Nat) (s : State) : State :=
  let v := (s.core c).vec
  match v.fin with
  | none => s
  | some x =>
    let r := VRec.of x.words
    let s := s.setVec c { v with fin := none }
    let s := each (coilsRead r) (vxRelease c x.next) s
    let s := recordBoundary c (vxDone c 1 s)
    if r.sigEn then sendSignal (.vector c r.tag) r.sigAddr r.sigAdd s else s

/-- PORT_CTL code 1: the engine restarts; the faulted record is discarded. -/
def restartVector (c : Nat) (s : State) : State :=
  let v := (s.core c).vec
  if !v.halt then s else vxDone c 1 (s.setVec c { v with halt := false, fault := none, run := none })

/-- PORT_CTL code 3: the coil and the staged record are discarded. -/
def flushVector (c : Nat) (s : State) : State :=
  let x := s.core c
  let n := x.vx.coil.length + b2n x.vec.staged.isSome
  dropWait c 2 (s.setCore c { x with
    vx := (x.vx.finish n).take 2 x.vx.coil.length, vec := { x.vec with staged := none, late := false } })

/-- Is the engine at a vector record boundary: between records, or halted (R163)? -/
def vxBoundary (s : State) (c : Nat) : Bool :=
  let v := (s.core c).vec
  v.run.isNone || v.halt

/-- CORE_VX_STATUS (R146). -/
def vxStatus (s : State) (c : Nat) : Nat :=
  let v := (s.core c).vec
  let (dir, len) := (carryKey v.carry).getD (false, 0)
  fld (b2n dir) 44 44 + fld len 43 32 + fld v.tag 31 16
    + 8 * b2n (match v.staged with
      | some w => vxWait s c (VRec.of w) == .notYet
      | none => false)
    + 4 * b2n v.carry.isSome + 2 * b2n v.halt + b2n (v.staged.isSome || v.run.isSome || v.fin.isSome)

end Sys2Proof.Machine
end

