-- ==== Sys2Proof/Machine/Ports.lean ====
section
/-! DEFINITION. The engine ports: staging buffers, pushes and stalled pushes (R175 to R177), PORT_STATUS,
PORT_CTL and the context registers of the strand port (R178, R195, R201, R232). Port 0 is the matrix port,
1 the vector port, 2 the strand port. -/

namespace Sys2Proof.Machine

/-- Port p of core c. -/
def State.eport (s : State) (c p : Nat) : Port :=
  if p = 0 then (s.core c).mx else if p = 1 then (s.core c).vx else (s.core c).sx

/-- The state with a port replaced. -/
def State.setEport (s : State) (c p : Nat) (v : Port) : State :=
  s.setCore c (if p = 0 then { s.core c with mx := v } else if p = 1 then { s.core c with vx := v }
    else { s.core c with sx := v })

/-- Records that a command coil holds (R175). -/
def coilRoom (p : Nat) : Nat := if p = 1 then 8 else 16

/-- Words of a record (R177). -/
def recordWords (p : Nat) : Nat := if p = 1 then 16 else 8

/-- Does the engine of a port hold a halted executor (R177, R201)? -/
def portHalted (s : State) (c p : Nat) : Bool :=
  let r := s.core c
  if p = 0 then r.arr.halt || r.sid.halt
  else if p = 1 then r.vec.halt
  else (upto 8).any fun n => (s.ctx c n).state == 4

/-- Is a store at a port offset one that pushes a record (R177)? -/
def isPush (p off width : Nat) : Bool :=
  off / 8 == recordWords p - 1 && ((width == 8 && off % 8 == 0) || (width == 4 && off % 8 == 4))

/-- The word of STAGE after a store of 4 or 8 B. -/
def stageWord (old : Word) (off width v : Nat) : Word :=
  if width = 8 then word v
  else if off % 8 = 0 then word (old.toNat / 2 ^ 32 * 2 ^ 32 + v % 2 ^ 32)
  else word (old.toNat % 2 ^ 32 + v % 2 ^ 32 * 2 ^ 32)

/-- A store to the staging buffer. -/
def stageStore (c p off width v : Nat) (s : State) : State :=
  let e := s.eport c p
  s.setEport c p { e with stage := put e.stage (off / 8) (stageWord (nth 0 e.stage (off / 8)) off width v) }

/-- The record in the staging buffer enters the command coil. -/
def pushRecord (c p : Nat) (s : State) : State :=
  let e := s.eport c p
  s.setEport c p { e with coil := e.coil ++ [e.stage.take (recordWords p)], pushed := (e.pushed + 1) % 2 ^ 64 }

/-- Has the command coil room? -/
def portRoom (s : State) (c p : Nat) : Bool := decide ((s.eport c p).coil.length < coilRoom p)

/-- PORT_HALTED of a push: nothing is pushed or written (R177). -/
def pushFault (c p : Nat) (s : State) : Option Resp × State :=
  (some (.err evPortHalted), raiseEv (.core c) evPortHalted (detUnit p 0 0) s)

/-- A store that pushes: into a coil with room, against a halted engine, or it stalls. -/
def pushStore (c p off width v : Nat) (q : Req) (s : State) : Option Resp × State :=
  if portRoom s c p then (some (.ok []), pushRecord c p (stageStore c p off width v s))
  else if portHalted s c p then pushFault c p s
  else (none, s.setCore c { s.core c with stalls := (s.core c).stalls ++ [⟨p, width, word v, q⟩] })

/-- The first stalled push that can end: its coil has room, or its engine has halted. -/
def stallDue (s : State) (c : Nat) : Option PushStall :=
  (s.core c).stalls.find? fun t => portRoom s c t.port || portHalted s c t.port

/-- The first stalled push that can end, ends. -/
def stallRelease (c : Nat) (s : State) : State :=
  match stallDue s c with
  | none => s
  | some t =>
    let s := s.setCore c { s.core c with stalls := (s.core c).stalls.erase t }
    let off := 8 * (recordWords t.port - 1) + (if t.width = 4 then 4 else 0)
    if portRoom s c t.port then
      answer t.req (.ok []) (pushRecord c t.port (stageStore c t.port off t.width t.val.toNat s))
    else answerOpt t.req (pushFault c t.port s)

/-! ## PORT_STATUS and PORT_CTL -/

/-- Does a staged record still wait on its sync word? -/
def stagedWaits (s : State) (c p : Nat) : Bool :=
  if p = 0 then [false, true].any fun side => (mxStaged s c side).any fun w => mxWait s c w == .notYet
  else if p = 1 then (s.core c).vec.staged.any fun w => vxWait s c (VRec.of w) == .notYet
  else (upto 8).any fun n =>
    let k := s.ctx c n
    k.state == 1 && k.srec.waitEn && waitState c (ctxWaiter n) (k.who c n) k.srec.waitAddr k.srec.waitValue s == .notYet

/-- Does an executor of the port hold a staged or running record? -/
def portBusy (s : State) (c p : Nat) : Bool :=
  let r := s.core c
  if p = 0 then r.arr.staged.isSome || r.arr.run.isSome || r.arr.fin.isSome || r.sid.staged.isSome || r.sid.run.isSome
  else if p = 1 then r.vec.staged.isSome || r.vec.run.isSome || r.vec.fin.isSome
  else (upto 8).any fun n => (s.ctx c n).state != 0

/-- PORT_STATUS (R195). -/
def portStatus (s : State) (c p : Nat) : Nat :=
  let r := s.core c
  2048 * b2n (stagedWaits s c p)
    + 1024 * b2n (p == 0 && r.sid.halt)
    + 512 * b2n (if p = 0 then r.arr.halt else portHalted s c p)
    + 256 * b2n (portBusy s c p) + (s.eport c p).coil.length

/-- PORT_CTL (R178, R195, R201). -/
def portCtl (c p cmd : Nat) (s : State) : State :=
  if p = 0 then
    (if cmd = 1 then restartArrays c s else if cmd = 2 then restartSide c s
     else if cmd = 3 then flushMatrix c s else s)
  else if p = 1 then (if cmd = 1 then restartVector c s else if cmd = 3 then flushVector c s else s)
  else if cmd = 1 then restartStrands c s else if cmd = 3 then flushStrands c s else s

/-! ## Context registers (R232) -/

/-- A context register. -/
def ctxValue (s : State) (c n off : Nat) : Nat :=
  let k := s.ctx c n
  if off = 0x00 then fld k.tag 47 32 + fld (if k.state = 4 then k.cause else 0) 31 16 + k.state
  else if off = 0x08 then k.pos
  else if off = 0x10 then k.addr
  else if off = 0x18 then
    if k.state = 0 then 0
    else fld (b2n (k.srec.period == 0)) 48 48 + fld (min k.fill 0xFFFF) 47 32
      + (if k.srec.period = 0 then 0
         else toBits (min (max (k.tdry - s.now) (-2147483648)) 2147483647) 32)
  else 0

/-- The context and register offset of a port offset. -/
def ctxAt (off : Nat) : Nat × Nat := ((off - 0x100) / 0x40, (off - 0x100) % 0x40)

/-- CORE_STRCTX_CMD_n. -/
def ctxCmd (c n cmd : Nat) (s : State) : State :=
  if cmd = 1 then resumeStrand c n s else if cmd = 2 then cancelStrand c n s else s

/-! ## Accesses -/

/-- Is there a register at this port offset? -/
def portReg (p off : Nat) : Bool :=
  decide (off < 0xA0) || (p == 2 && decide (0x100 ≤ off) && decide (off < 0x300) && decide (off % 0x40 < 0x28))

/-- The 64-bit value of a port register. -/
def portValue (s : State) (c p off : Nat) : Nat :=
  if off < 0x80 then (nth 0 (s.eport c p).stage (off / 8)).toNat
  else if off = 0x80 then portStatus s c p
  else if off = 0x90 then (s.eport c p).pushed
  else if off = 0x98 then (s.eport c p).done
  else if 0x100 ≤ off then ctxValue s c (ctxAt off).1 (ctxAt off).2
  else 0

/-- The offset in the core window under which a port register has its read shadow (R233, R391). -/
def portShadow (p off : Nat) : Nat := 0x1000 + 0x400 * p + off

/-- A load of 4 or 8 B from an engine port. -/
def portLoad (c p off n : Nat) (q : Req) (s : State) : Option Resp × State :=
  let o := alignDown off 8
  if !(n == 4 || n == 8) || off % n != 0 || !portReg p o then refuse evAddrUnmapped q q.addr s
  else
    let v := portValue s c p o
    if n = 8 then (some (.ok (leBytes 8 v)), s)
    else if o < 0x80 then (some (.ok (leBytes 4 (v / 2 ^ (8 * (off % 8))))), s)
    else
      let (x, s) := if off % 8 = 0 then readLow (.core c) (portShadow p o) v q.who s
        else readHigh (.core c) (portShadow p o) v q.who s
      (some (.ok (leBytes 4 x)), s)

/-- A store of 4 or 8 B to an engine port. The commands lie in the low half of their words. (DEDUCED, log entry 19) -/
def portStore (c p off n v : Nat) (q : Req) (s : State) : Option Resp × State :=
  let o := alignDown off 8
  if !(n == 4 || n == 8) || off % n != 0 || !portReg p o then refuse evAddrUnmapped q q.addr s
  else if o < 0x80 then
    if isPush p off n then pushStore c p off n v q s else (some (.ok []), stageStore c p off n v s)
  else if off = 0x88 then (some (.ok []), portCtl c p (v % 16) s)
  else if p = 2 ∧ 0x100 ≤ off ∧ off % 0x40 = 0x20 then (some (.ok []), ctxCmd c (ctxAt off).1 (v % 4) s)
  else (some (.ok []), s)

end Sys2Proof.Machine
end

