-- ==== Sys2Proof/Machine/Resets.lean ====
section
/-! DEFINITION. What a reset of each domain clears and keeps (R161, R400, R417, R418, R438). -/

namespace Sys2Proof.Machine

/-- A page at its reset values (R400). The collector's counts and the comparison already made in the
window are not the page's fields and stay. -/
def resetPage (p : PageId) (s : State) : State :=
  let g := s.page p
  s.setPage p { compared := g.compared, evCount := g.evCount }

/-- Does an issuer act for core c? -/
def ofCore (c : Nat) : Issuer → Bool
  | .steward d => d == c
  | .arrays d _ => d == c
  | .side d _ => d == c
  | .vector d _ => d == c
  | .strand d _ _ => d == c
  | _ => false

/-- A request whose issuer has been reset: its answer concerns nobody (R418). -/
def orphanReq (c : Nat) (q : Req) : Req := if ofCore c q.who then { q with cont := .none } else q

/-- Everything outside core c forgets that the core waits for it. -/
def forgetCore (c : Nat) (s : State) : State :=
  { s with
    fab := { s.fab with
      outs := s.fab.outs.map fun o => if ofCore c o.who then { o with cont := .none } else o
      deferred := s.fab.deferred.map fun d => { d with req := orphanReq c d.req } }
    held := s.held.map fun h => { h with req := orphanReq c h.req }
    parked := s.parked.map fun a => (a.1, orphanReq c a.2.1, a.2.2)
    cores := s.cores.map fun r => (r.1, { r.2 with bol := { r.2.bol with
      waits := r.2.bol.waits.map fun w => { w with req := orphanReq c w.req } } })
    resv := s.resv.filter fun r => r.1 != c
    mons := s.mons.filter fun m => m.core != c
    waits := s.waits.filter fun w => w.core != c }

/-- A core at its reset state; its SRAM stays (R417). -/
def resetCore (c : Nat) (s : State) : State :=
  resetPage (.core c) ((forgetCore c s).setCore c { stw := { cycles := { since := some s.now } } })

/-- The cores of polder p (R15). -/
def polderCores (p : Nat) : List Nat := (upto 64).map fun i => 64 * p + i

/-- A polder's 64 cores at their reset state. -/
def resetPolder (p : Nat) (s : State) : State := each (polderCores p) resetCore s

/-- A fabric port at its reset state, training again if enabled, as its page's reset value has it
(R417). -/
def resetPort (p : Nat) (s : State) : State :=
  let l : Link := { state := 2, creditAt := [s.now, s.now, s.now, s.now, s.now] }
  resetPage (.fport p) (s.setPort p { link0 := l })

/-- The host port at its reset state; regions, addresses and the event destination stay (R417). -/
def resetHost (s : State) : State :=
  let e := s.eth
  resetPage .roce (resetPage .eth { s with eth := { e with
    link := 0, downs := 0, dropped := 0, denied := 0, deniedWindow := 0, paused := [], qps := []
    outstanding := 0, kept := [], runs := [], ingress := [], ingressB := [], txHeld := []
    ackPtr := 0, readPtr := 0 } })

/-- What a stack keeps over a chip reset: poison lies in the check symbols, repairs in the dies
(R271, R284, R417). -/
def resetStack (t : Stack) : Stack :=
  { poison := t.poison, softUsed := t.softUsed, softRows := t.softRows, hardRows := t.hardRows
    lanes := t.lanes, upsets := t.upsets.filter fun f => !errCached f.kind }

/-- What becomes of a transfer in flight at a crossing of which a side resets: it is delivered zero, one or two
times, or leaves the surviving side waiting (R418; DESIGN CHOICE, log entry 17). A second delivery answers nobody; `gone` says
that the issuer has been reset, so that none is left to wait. -/
def crossFate (gone : Bool) (n : Nat) (h : Held) : List Held :=
  match n with
  | 1 => [h]
  | 2 => [h, { h with req := { h.req with cont := .none } }]
  | _ => if gone then [] else [{ h with gate := .lost }]

/-- The transfers held at crossings of polders, as a reset of some issuers and of some targets leaves them: a free
value decides each (R418). -/
def crossFates (gone target : Held → Bool) : List Held → State → List Held × State
  | [], s => ([], s)
  | h :: r, s =>
    let keep (s : State) : List Held × State :=
      let x := crossFates gone target r s
      (h :: x.1, x.2)
    match h.gate with
    | .channel _ _ => keep s
    | .stack _ => keep s
    | .lost => if gone h then crossFates gone target r s else keep s
    | .polder _ =>
      if gone h || target h then
        let d := s.draw 2
        let x := crossFates gone target r d.2
        (crossFate (gone h) d.1 h ++ x.1, x.2)
      else keep s

/-- What becomes of what is on its way into the knot table when its core resets: it is delivered zero, one or two times
(R418; DESIGN CHOICE, log entry 17). -/
def knotFates (gone : KnotIn → Bool) : List KnotIn → State → List KnotIn × State
  | [], s => ([], s)
  | i :: r, s =>
    if gone i then
      let d := s.draw 2
      let x := knotFates gone r d.2
      (List.replicate (if d.1 = 3 then 0 else d.1) i ++ x.1, x.2)
    else
      let x := knotFates gone r s
      (i :: x.1, x.2)

/-- Is a request held at a polder's crossing? -/
def atCrossing (h : Held) : Bool :=
  match h.gate with
  | .polder _ => true
  | _ => false

/-- What a chip reset, which reaches both sides of every crossing, leaves of the transfers at them: requests that nobody
waits for any more, and arrivals at the knot table (R418). -/
def chipCrossings (s : State) : State :=
  let x := crossFates (fun _ => true) (fun _ => true) (s.held.filter atCrossing) s
  let y := knotFates (fun _ => true) s.knotIn x.2
  { y.2 with held := x.1.map fun h => { h with req := { h.req with cont := .none } }, knotIn := y.1 }

/-- The dike time and the tables of the dike domain stay; every block outside it and every chip page
resets (R417); SEC_BOOT_CFG is sampled first (R438). A start that is interrupted begins again with its
first step (R439). -/
def chipResetTo (reload zero : Bool) (s : State) : State :=
  let during := !s.sec.inReset && (s.sec.state == 1 || s.sec.state == 2 || s.sec.state == 3)
  let kept := s.hbmStacks.filterMap fun r =>
    if r.2.migrating then r.2.outPc.map fun _ => (r.1, r.2.copyPtr) else none
  let s := chipCrossings s
  let s1 : State := { s with
    cores := [], ports := [], fab := {}, chipSlots := [], hallSlots := [], parked := [], images := [], resv := []
    mons := [], waits := [], pres := {}, answers := [], spl := []
    hbmStacks := s.hbmStacks.map fun r => (r.1, resetStack r.2)
    pages := s.pages.map fun r => (r.1, { compared := r.2.compared, evCount := r.2.evCount })
    eth := { mac := s.eth.mac, ipv4 := s.eth.ipv4, ipv6 := s.eth.ipv6, destV6 := s.eth.destV6
             destIp := s.eth.destIp, destPort := s.eth.destPort, destMac := s.eth.destMac
             destEn := s.eth.destEn }
    evt := { s.evt with dropped := 0, sramSeep := 0, driftLast := 0 }
    slu := {}
    gov := { cool := s.module.straps, coolNew := s.module.straps, window := s.gov.window }
    module := { s.module with thermAlertN := !s.module.boardAlert }
    sec := { s.sec with
      state := 1, inReset := true, fwVer := 0, sampReload := reload, sampZero := zero
      coldAgain := if s.sec.inReset then s.sec.coldAgain else during && s.sec.kind == 0
      restarts := if during then min 255 (s.sec.restarts + 1) else s.sec.restarts
      keptPtrs := if kept.isEmpty then s.sec.keptPtrs else kept
      activateAt := none, quote := none, attests := [], readyT := 0 } }
  if during then raiseEv .slu evStartRestarted (detUnit 0 0 s1.sec.restarts) s1 else s1

/-- A chip reset as RESET_N or SLU_RESET starts it: it samples SEC_BOOT_CFG as applied (R438). -/
def chipReset (s : State) : State :=
  chipResetTo (s.field .sec 0x118 1 1 == 1) (s.field .sec 0x118 0 0 == 1) s

/-- The state after power-on reset, with what no reset reaches: flash, fuses, the log in flash, the
module's pins and what has been sent (R417). -/
def powerOn (s : State) : State :=
  { State.reset with
    freeCount := s.freeCount, sent := s.sent, flash := s.flash, pending := s.pending
    module := s.module
    eth := { mac := s.eth.mac, ipv4 := s.eth.ipv4, ipv6 := s.eth.ipv6 }
    gov := { cool := s.module.straps, coolNew := s.module.straps }
    hbmStacks := s.hbmStacks.map fun r => (r.1, { hardRows := r.2.hardRows })
    sec := { svn := s.sec.svn, keySet := s.sec.keySet, keyHash := s.sec.keyHash, serial := s.sec.serial
             baseStep := s.sec.baseStep, metalStep := s.sec.metalStep
             logStacks := s.sec.logStacks, logPcs := s.sec.logPcs, logMigrating := s.sec.logMigrating
             logSoft := s.sec.logSoft, logLanes := s.sec.logLanes } }

end Sys2Proof.Machine
end

