-- ==== Sys2Proof/Machine/Sluice.lean ====
section
/-! DEFINITION. The sluice: quiescence (R421), drains and wakes (R420 to R424, R216), SLU_CMD and SLU_RESET
(R417, R430). -/

namespace Sys2Proof.Machine

/-! ## Quiescence (R421) -/

/-- Does a steward's bollard operation wait, at a bollard unit or on its way to another device's? -/
def inBollard (s : State) (c : Nat) : Bool :=
  s.cores.any (fun r => r.2.bol.waits.any fun w => w.req.who == .steward c)
    || s.fab.outs.any (fun o => o.who == .steward c && (o.opc == 0x09 || o.opc == 0x0A))

/-- Is core c's steward quiescent? -/
def stwQuiet (s : State) (c : Nat) : Bool :=
  let w := (s.core c).stw
  match w.st, w.wait with
  | .idle, _ => (alookup 0 (s.core c).bol.full).isNone
  | .run, .wrs false _ => true
  | .run, .access _ _ _ => inBollard s c
  | _, _ => false

/-- Does a record of core c run? A halted executor holds none. -/
def coreRuns (s : State) (c : Nat) : Bool :=
  let r := s.core c
  (r.arr.run.isSome && !r.arr.halt) || r.arr.fin.isSome || r.arr.drain.isSome
    || (r.sid.run.isSome && !r.sid.halt) || (r.vec.run.isSome && !r.vec.halt) || r.vec.fin.isSome
    || (upto 8).any fun n => (s.ctx c n).state == 2

/-- Is an access of the core in flight, bollard operations apart? -/
def coreFlies (s : State) (c : Nat) : Bool :=
  s.fab.outs.any (fun o => ofCore c o.who && o.opc != 0x09 && o.opc != 0x0A)
    || s.held.any (fun h => ofCore c h.req.who) || !(s.core c).stalls.isEmpty
    || (upto 8).any fun n => !(s.ctx c n).jobs.isEmpty

/-- Is core c quiescent? -/
def coreQuiet (s : State) (c : Nat) : Bool :=
  let r := s.core c
  stwQuiet s c && !coreRuns s c && !coreFlies s c && r.sfu.queue.isEmpty && r.coilWait.isNone
    && r.arr.held.isNone && (s.page (.core c)).pend.isEmpty

/-- The core of a control page. -/
def pageCore : PageId → Option Nat
  | .core c => some c
  | _ => none

/-- The cores that are not quiescent: a core that is not listed is at its reset state, its page apart. -/
def busyCores (s : State) : List Nat :=
  ((s.cores.map (·.1)) ++ (s.pages.filterMap fun r => pageCore r.1)).filter fun c => !coreQuiet s c

/-- The polders with a core that is not quiescent. -/
def busyPolders (s : State) : List Nat := ((busyCores s).map polderOf).eraseDups

/-- Is every core of polder p quiescent? -/
def polderQuiet (s : State) (p : Nat) : Bool := !(busyPolders s).contains p

/-- After a command: the tick to which the quiescent interval of each polder goes back. In DRAINING a core
that stops being quiescent is a wake event (R422). -/
def noteBusy (before after : State) : State :=
  let l := (busyPolders before ++ busyPolders after).eraseDups
  each l (fun p s =>
    let s := s.setPolder p { s.polder p with busyAt := s.now }
    if (s.polder p).state = 1 ∧ !polderQuiet s p then markWake p 4 s else s) after

/-! ## Drains (R421, R216) -/

/-- A polder enters DRAINING: deadline strands register their t_dry (R216). -/
def beginDrain (p : Nat) (s : State) : State :=
  let leads := (polderCores p).flatMap fun c => (upto 8).filterMap fun n =>
    let k := s.ctx c n
    if k.state ≠ 0 ∧ k.srec.period ≠ 0 then some (k.tdry - s.field (.core c) 0x4C0 15 0, c, n) else none
  s.setPolder p { s.polder p with state := 1, drainAsked := false, leads := leads, wake := none, granted := false }

/-- May polder p drain by itself: enabled, and quiescent throughout DRAIN_DELAY? -/
def drainDelayOver (s : State) (p : Nat) : Bool :=
  bit (s.reg .slu (0x108 + 8 * (p / 64))) (p % 64)
    && s.past (s.polder p).busyAt (s.field .slu 0x100 31 0)

/-- Does polder p enter DRAINING now? -/
def polderDrainDue (s : State) (p : Nat) : Bool :=
  let d := s.polder p
  s.live && decide (p < 160) && d.state == 0 && polderQuiet s p && (d.drainAsked || drainDelayOver s p)

/-- Steward cycles of a dike tick (R411). -/
def stwPerTick : Nat := 12

/-- The bounds of a steward's cycle count: at either end of an interval up to a tick's cycles may miss. It counts from the
device's start, in which it leaves its reset, or from the tick named. (DEDUCED, log entry 66) -/
def StwCycles.bounds (k : StwCycles) (t0 ready now : Nat) : Nat × Nat :=
  if k.stopped then (k.lo, k.hi)
  else match k.since with
    | none => (k.lo + (stwPerTick * (now - ready) - (stwPerTick - 1)), k.hi + stwPerTick * (now - t0) + (stwPerTick - 1))
    | some t => (k.lo + (stwPerTick * (now - t) - (stwPerTick - 1)), k.hi + stwPerTick * (now - t) + (stwPerTick - 1))

/-- A steward's clock stops: its cycle count stands (R411, R420). -/
def stopCycles (s : State) (w : Steward) : StwCycles :=
  let b := w.cycles.bounds s.sec.t0 s.sec.readyT s.now
  { lo := b.1, hi := b.2, last := w.cycles.last, stopped := true }

/-- A steward's clock has started again, no more than 40 ticks ago (R424). -/
def startCycles (s : State) (k : StwCycles) : StwCycles :=
  if k.stopped then { k with hi := k.hi + 40 * stwPerTick, since := some s.now, stopped := false } else k

/-- DRAINING ends: the clocks stop; instruction caches are lost, and what only a running record uses (R420). -/
def finishDrain (p : Nat) (s : State) : State :=
  each (polderCores p) (fun c s =>
    let r := s.core c
    s.setCore c { r with
      stw := { r.stw with icache := [], cycles := stopCycles s r.stw }
      arr := { r.arr with tally := [], sums := [], cols := [] } })
    (s.setPolder p { s.polder p with state := 2, drainAsked := false })

/-! ## Wakes (R423, R424) -/

/-- Has a polder a wake event that the sluice has not taken? -/
def wakeDue (s : State) (p cause : Nat) : Bool :=
  let d := s.polder p
  (d.state == 1 || d.state == 2) && match d.wake with
    | some (_, c) => c == cause
    | none => false

/-- The sluice takes the wake event. -/
def beginWake (p : Nat) (s : State) : State := s.setPolder p { s.polder p with state := 3, granted := false }

/-- Has a registered deadline of a sleeping polder been reached (R216)? -/
def leadDue (s : State) (p : Nat) : Bool :=
  let d := s.polder p
  (d.state == 1 || d.state == 2) && d.wake.isNone && d.leads.any fun l => decide (l.1 ≤ (s.now : Int))

/-- The polders admitted in the present tick. -/
def grantsNow (s : State) : Nat := if s.slu.grantAt = s.now then s.slu.grants else 0

/-- Polders that wait for their grant, ascending, at most 8 in a tick (R424). -/
def grantable (s : State) : List Nat :=
  ((upto 160).filter fun p => (s.polder p).state == 3 && !(s.polder p).granted).take (8 - grantsNow s)

/-- The sluice admits polders to power-up. -/
def grantWakes (s : State) : State :=
  let l := grantable s
  let t := each l (fun p s => s.setPolder p { s.polder p with granted := true }) s
  { t with slu := { t.slu with grantAt := s.now, grants := grantsNow s + l.length } }

/-- A polder is ACTIVE again: the wake is recorded; the sweep of its cores' pages goes on in the first window
that begins after it (R405). What its crossings held is served by the caller. -/
def finishWake (p : Nat) (s : State) : State :=
  let d := s.polder p
  let (t, cause) := d.wake.getD (s.now, 0)
  let last := fld cause 42 40 + fld p 39 32 + fld (min (s.now - t) 0xFFFF) 15 0
  let s := s.setPolder p { state := 0, wakes := (d.wakes + 1) % 2 ^ 32, busyAt := s.now, knots := d.knots
                           drainAsked := d.drainAsked }
  let s := { s with slu := { s.slu with wakeLast := last } }
  each (polderCores p) (fun c s =>
    let w := (s.core c).stw
    (s.setStw c { w with cycles := startCycles s w.cycles }).setPage (.core c)
      { s.page (.core c) with compared := compareWindow s }) s

/-! ## Commands (R417, R430) -/

/-- SLU_CMD_BAD: nothing is done. -/
def sluBad (op target : Nat) (s : State) : State := raiseEv .slu evSluCmdBad (detUnit op target 0) s

/-- SLU_CMD. -/
def sluCmd (v : Nat) (s : State) : State :=
  let op := bits v 9 8
  let p := bits v 7 0
  if (op ≠ 1 ∧ op ≠ 2) ∨ 160 ≤ p then sluBad op p s
  else if op = 2 then markWake p 5 s
  else
    let s := s.setPolder p { s.polder p with drainAsked := (s.polder p).state != 2 }
    if polderDrainDue s p then beginDrain p s else s

/-- SLU_RESET: the reset takes effect 1,000 ticks after the write. -/
def sluReset (v : Nat) (s : State) : State :=
  let dom := bits v 19 16
  let t := bits v 13 0
  let ok := (dom == 1 && decide (t < 10240)) || (dom == 2 && decide (t < 160)) || (dom == 3 && decide (t < 16))
    || dom == 4 || dom == 5
  if !ok then sluBad dom t s
  else { s with slu := { s.slu with resets := s.slu.resets ++ [(dom, if dom ≥ 4 then 0 else t, s.now + 1000)] } }

/-- Is a scheduled reset due? -/
def resetDue (s : State) (dom t : Nat) : Bool :=
  s.slu.resets.any fun r => r.1 == dom && r.2.1 == t && decide (r.2.2 ≤ s.now)

/-- The scheduled reset has taken effect. -/
def resetDone (dom t : Nat) (s : State) : State :=
  { s with slu := { s.slu with resets := s.slu.resets.filter fun r =>
      !(r.1 == dom && r.2.1 == t && decide (r.2.2 ≤ s.now)) } }

end Sys2Proof.Machine
end

