-- ==== Sys2Proof/Machine/ModuleCmds.lean ====
section
/-! DEFINITION. The module's power states, pins and trips (R475 to R479, R482) and its PMBus commands
(R480). Module time is counted in units of 10 ns. -/

namespace Sys2Proof.Machine

/-- PWR_GOOD falls: nothing runs any more and the start state is OFF (R433, R477). -/
def powerLost (s : State) : State :=
  { s with sec := { s.sec with state := 0 }, module := { s.module with power := min s.module.power 1 } }

/-- The module's commands act whatever the start state is. -/
def always (_ : State) : Bool := true

/-- VIN_VALID (R477): VIN is valid; the module is in standby. -/
def execVinValid (s : State) : Host.Outcome State Fault Refusal :=
  run (fun s => !s.module.vin) (fun s => { s with module := { s.module with
    vin := true, vinSince := s.module.time, power := 1 } }) s

/-- VIN_OFF (R475): the module turns off; PWR_GOOD falls with it, and PWR_EN must be 0 for 500 ms before it powers up again
(R477; DEDUCED, log entry 78). -/
def execVinOff (s : State) : Host.Outcome State Fault Refusal :=
  run (fun s => s.module.vin) (fun s =>
    let t := powerLost s
    { t with module := { t.module with vin := false, power := 0, enOk := false, stInput := 0, stTemp := 0, stCml := 0
                                       pmbAlertN := true } }) s

/-- Trip thresholds of the sensor groups in °C: compute tiles, HBM stacks, board (R482). -/
def tripAt (group : Nat) : Int := if group = 0 then 110 else if group = 1 then 105 else 125

/-- Is any sensor within 15 °C of its trip threshold (R482)? -/
def nearTrip (m : Module) : Bool := (upto 3).any fun g => decide (nth 0 m.sensors g + 15 ≥ tripAt g)

/-- PWR_EN_RISE (R477): the supplies ramp if PWR_EN has been 0 for 500 ms and no sensor is near its
trip. (DEDUCED, log entry 78) -/
def execPwrEnRise (s : State) : Host.Outcome State Fault Refusal :=
  run (fun s => !s.module.pwrEn) (fun s =>
    let m := s.module
    let ok := decide (m.enLowSince + 50000000 ≤ m.time) && !nearTrip m
    { s with module := { m with
      pwrEn := true, enOk := ok, power := if ok && m.vin then 2 else m.power } }) s

/-- PWR_EN_FALL (R477, R482): PWR_GOOD falls, a trip's indication ends. (DEDUCED, log entry 78) -/
def execPwrEnFall (s : State) : Host.Outcome State Fault Refusal :=
  run (fun s => s.module.pwrEn) (fun s =>
    let t := powerLost s
    { t with module := { t.module with
      pwrEn := false, enLowSince := t.module.time, enOk := false, tripN := true } }) s

/-- The identity key of the die (R450): d in [1, n − 2] and the point P = d·G. -/
def identityKey : Nat × Nat × Nat :=
  let d := (Config.identitySeed 0).toNat % (sm2n - 2) + 1
  match sm2Affine (sm2Mul 256 d { x := sm2gx, y := sm2gy, z := 1 }) with
  | some (x, y) => (d, x, y)
  | none => (d, 0, 0)

/-- The certificate in the identity store: a DER sequence of at most 2,048 B, or nothing (R443, R450). -/
def certificate (flash : Mem) : List Byte :=
  let h := flash.read 0x3800000 4
  if nth 0 h 0 == 0x30#8 && nth 0 h 1 == 0x82#8 then
    let n := beNat (h.drop 2) + 4
    if n ≤ 2048 then flash.read 0x3800000 n else []
  else []

/-- Does a byte list contain another? -/
def containsBytes (needle : List Byte) : List Byte → Bool
  | [] => needle.isEmpty
  | b :: bs => needle.isPrefixOf (b :: bs) || containsBytes needle bs

/-- Does the certificate carry the derived public key (R450; DEDUCED, log entry 33)? -/
def identityOk (flash : Mem) : Bool :=
  let (_, x, y) := identityKey
  let c := certificate flash
  !c.isEmpty && containsBytes (beBytes 32 x ++ beBytes 32 y) c

/-- May the module power up now (R477)? -/
def mayPowerUp (s : State) : Bool :=
  let m := s.module
  s.sec.state == 0 && m.vin && m.pwrEn && m.enOk && m.tripN && decide (m.vinSince + 1000000 ≤ m.time)

/-- The boot ROM's identity check, at every cold start (R450). -/
def checkIdentity (s : State) : State :=
  let ok := identityOk s.flash
  { s with
    sec := { s.sec with idOk := ok }
    evt := if ok then s.evt else (raiseEv .sec evSecIdentBad 0 s).evt }

/-- The cold start that PWR_GOOD begins (R413, R434, R450): tick 0, the identity key compared. RESET_N counts from here on
(R478; DEDUCED, log entry 78). -/
def coldStart (s : State) : State :=
  let t := powerOn s
  checkIdentity { t with module := { t.module with power := 3, resetN := true } }

/-- PWR_GOOD (R434): the one command that sets the dike time counter, to 0. -/
def execPwrGood (s : State) : Host.Outcome State Fault Refusal :=
  if mayPowerUp s then .next (coldStart s) else .next s

/-- PWR_GOOD_LOSS (R433). -/
def execPwrGoodLoss (s : State) : Host.Outcome State Fault Refusal :=
  run State.powered powerLost s

/-- RESET_N_ASSERT (R478): RESET_N has been low for 20 ticks; a chip reset begins and lasts until it
rises. (DEDUCED, log entry 78) -/
def execResetNAssert (s : State) : Host.Outcome State Fault Refusal :=
  run State.powered (fun s =>
    let t := chipReset s
    { t with module := { t.module with resetN := false } }) s

/-- PMBus latches a fault: the alert line is asserted (R480). -/
def latch (f : Module → Module) (s : State) : State :=
  { s with module := { f s.module with pmbAlertN := false } }

/-- THERMAL_TRIP (R482): a sensor group reads a temperature; at its threshold every supply beyond
standby goes off and THERM_TRIP_N is asserted. (DEDUCED, log entry 78) -/
def execThermalTrip (group : Nat) (celsius : Int) (s : State) : Host.Outcome State Fault Refusal :=
  run (fun s => decide (group < 3) && decide (1 ≤ s.module.power)) (fun s =>
    let s := { s with module := { s.module with sensors := put s.module.sensors group celsius } }
    if celsius ≥ tripAt group then
      let t := powerLost s
      latch (fun m => { m with tripN := false, stTemp := m.stTemp ||| 0x80 }) t
    else s) s

/-- PRESENT_N_CHANGE (R479). -/
def execPresentNChange (mated : Bool) (s : State) : Host.Outcome State Fault Refusal :=
  run always (fun s => { s with module := { s.module with mated := mated } }) s

/-! ## PMBus (R480) -/

/-- A LINEAR11 word: mantissa [10:0] and exponent [15:11], both signed, compared with a whole number. -/
def linear11Above (w limit : Nat) : Bool :=
  let m := sext w 11
  let e := sext (w >>> 11) 5
  if e ≥ 0 then decide (m * 2 ^ e.toNat > limit) else decide (m > limit * 2 ^ (-e).toNat)

/-- Is a LINEAR11 reading below a whole number? -/
def linear11Below (w limit : Nat) : Bool :=
  let m := sext w 11
  let e := sext (w >>> 11) 5
  if e ≥ 0 then decide (m * 2 ^ e.toNat < limit) else decide (m < limit * 2 ^ (-e).toNat)

/-- Status bits of one telemetry sample: STATUS_INPUT and STATUS_TEMPERATURE (R475, R480, R482). The
bit places are the PMBus specification's (PRESUMED, log entry 34). -/
def sampleStatus (thermLimit : Nat) (t : Telemetry) : Nat × Nat :=
  let inp := fld (b2n (linear11Above t.vin 60)) 7 7 + fld (b2n (linear11Below t.vin 42)) 4 4
    + fld (b2n (linear11Above t.iin 55)) 2 2
  let warn := !linear11Below t.temp1 thermLimit || !linear11Below t.temp2 thermLimit
    || !linear11Below t.temp3 115
  let fault := !linear11Below t.temp1 110 || !linear11Below t.temp2 105 || !linear11Below t.temp3 125
  (inp, fld (b2n fault) 7 7 + fld (b2n warn) 6 6)

/-- PMBUS_TELEMETRY_SAMPLE (R480, R482): the readings are taken; status bits latch. -/
def execPmbusTelemetrySample (t : Telemetry) (s : State) : Host.Outcome State Fault Refusal :=
  run (fun s => decide (1 ≤ s.module.power)) (fun s =>
    let m := s.module
    let (inp, tmp) := sampleStatus (s.field .gov 0x108 23 16) t
    let board := !linear11Below t.temp3 115
    let m := { m with tele := t, boardAlert := board, thermAlertN := !s.gov.therm && !board }
    let s := { s with module := m }
    if inp = 0 ∧ tmp = 0 then s
    else latch (fun m => { m with stInput := m.stInput ||| inp, stTemp := m.stTemp ||| tmp }) s) s

/-- A PMBus command: served from standby on; one whose PEC fails is discarded with STATUS_CML.PEC. -/
def pmbus (pec : Pec) (f : State → State) (s : State) : Host.Outcome State Fault Refusal :=
  run (fun s => decide (1 ≤ s.module.power)) (fun s =>
    match pec with
    | .bad => latch (fun m => { m with stCml := m.stCml ||| 0x20 }) s
    | _ => f s) s

/-- Answers a PMBus read. -/
def pmAnswer (f : State → List Byte) (s : State) : State := s.emit (.pmbus (f s))

/-- A block read: its byte count first. -/
def block (bs : List Byte) : List Byte := leBytes 1 bs.length ++ bs

/-- The bytes of an ASCII text. -/
def ascii (t : String) : List Byte := t.toList.map fun c => BitVec.ofNat 8 c.toNat

/-- CLEAR_FAULTS. -/
def execClearFaults (pec : Pec) (s : State) : Host.Outcome State Fault Refusal :=
  pmbus pec (fun s => { s with module := { s.module with
    stInput := 0, stTemp := 0, stCml := 0, pmbAlertN := true } }) s

/-- STATUS_WORD: OFF, POWER_GOOD#, VIN_UV, IIN_OC, TEMPERATURE, CML and INPUT (PRESUMED, log entry 34). -/
def statusWord (s : State) : Nat :=
  let m := s.module
  fld (b2n (m.power != 3)) 6 6 + fld (b2n (bit m.stInput 2)) 4 4 + fld (b2n (bit m.stInput 4)) 3 3
    + fld (b2n (m.stTemp != 0)) 2 2 + fld (b2n (m.stCml != 0)) 1 1 + fld (b2n (m.stInput != 0)) 13 13
    + fld (b2n (s.sec.state == 0)) 11 11

/-- STATUS_WORD. -/
def execStatusWord (pec : Pec) (s : State) : Host.Outcome State Fault Refusal :=
  pmbus pec (pmAnswer fun s => leBytes 2 (statusWord s)) s

/-- STATUS_INPUT. -/
def execStatusInput (pec : Pec) (s : State) : Host.Outcome State Fault Refusal :=
  pmbus pec (pmAnswer fun s => leBytes 1 s.module.stInput) s

/-- STATUS_TEMPERATURE. -/
def execStatusTemperature (pec : Pec) (s : State) : Host.Outcome State Fault Refusal :=
  pmbus pec (pmAnswer fun s => leBytes 1 s.module.stTemp) s

/-- READ_VIN. -/
def execReadVin (pec : Pec) (s : State) : Host.Outcome State Fault Refusal :=
  pmbus pec (pmAnswer fun s => leBytes 2 s.module.tele.vin) s

/-- READ_IIN. -/
def execReadIin (pec : Pec) (s : State) : Host.Outcome State Fault Refusal :=
  pmbus pec (pmAnswer fun s => leBytes 2 s.module.tele.iin) s

/-- READ_TEMPERATURE_1. -/
def execReadTemperature1 (pec : Pec) (s : State) : Host.Outcome State Fault Refusal :=
  pmbus pec (pmAnswer fun s => leBytes 2 s.module.tele.temp1) s

/-- READ_TEMPERATURE_2. -/
def execReadTemperature2 (pec : Pec) (s : State) : Host.Outcome State Fault Refusal :=
  pmbus pec (pmAnswer fun s => leBytes 2 s.module.tele.temp2) s

/-- READ_TEMPERATURE_3. -/
def execReadTemperature3 (pec : Pec) (s : State) : Host.Outcome State Fault Refusal :=
  pmbus pec (pmAnswer fun s => leBytes 2 s.module.tele.temp3) s

/-- READ_PIN. -/
def execReadPin (pec : Pec) (s : State) : Host.Outcome State Fault Refusal :=
  pmbus pec (pmAnswer fun s => leBytes 2 s.module.tele.pin) s

/-- PMBUS_REVISION: 0x33. -/
def execPmbusRevision (pec : Pec) (s : State) : Host.Outcome State Fault Refusal :=
  pmbus pec (pmAnswer fun _ => [0x33#8]) s

/-- MFR_ID: "THODOM". -/
def execMfrId (pec : Pec) (s : State) : Host.Outcome State Fault Refusal :=
  pmbus pec (pmAnswer fun _ => block (ascii "THODOM")) s

/-- MFR_MODEL: "THD-DX10-A". -/
def execMfrModel (pec : Pec) (s : State) : Host.Outcome State Fault Refusal :=
  pmbus pec (pmAnswer fun _ => block (ascii "THD-DX10-A")) s

/-- A hexadecimal digit as a character; upper case is the model's choice (PRESUMED, log entry 34). -/
def hexDigit (d : Nat) : Byte := BitVec.ofNat 8 (if d < 10 then 48 + d else 55 + d)

/-- MFR_SERIAL: SEC_SERIAL as 16 hexadecimal characters. -/
def execMfrSerial (pec : Pec) (s : State) : Host.Outcome State Fault Refusal :=
  pmbus pec (pmAnswer fun s =>
    block ((upto 16).map fun i => hexDigit (s.sec.serial / 16 ^ (15 - i) % 16))) s

/-- MFR_COOL_ID: [2:0] straps, [6:4] the code in force, [7] a change is counting. -/
def execMfrCoolId (pec : Pec) (s : State) : Host.Outcome State Fault Refusal :=
  pmbus pec (pmAnswer fun s =>
    let g := s.gov
    let counting := g.coolNew != g.cool && decide (0 < g.coolCount) && decide (g.coolCount < 100)
    leBytes 1 (s.module.straps + 16 * g.cool + 128 * b2n counting)) s

/-- PMBUS_INVALID_COMMAND: STATUS_CML invalid command. -/
def execPmbusInvalidCommand (_code : Nat) (pec : Pec) (s : State) : Host.Outcome State Fault Refusal :=
  pmbus pec (latch fun m => { m with stCml := m.stCml ||| 0x80 }) s

end Sys2Proof.Machine
end

