-- ==== Sys2Proof/Machine/Startup.lean ====
section
/-! DEFINITION. Starts, firmware verification and the commands of the SEC page (R433 to R448, R452). -/

namespace Sys2Proof.Machine

/-! ## Firmware images (R443, R444) -/

/-- The flash offset of slot A or B. -/
def slotBase (slot : Nat) : Nat := if slot = 0 then 0 else 0x1800000

/-- Header bytes [i, i + n). -/
def hdr (h : List Byte) (i n : Nat) : List Byte := (h.drop i).take n

/-- Are all bytes zero? -/
def allZero (l : List Byte) : Bool := l.all (· == 0#8)

/-- LENGTH, LOAD, ENTRY and SVN of a header. -/
def hdrLength (h : List Byte) : Nat := leNat (hdr h 16 4)
/-- LOAD of a header. -/
def hdrLoad (h : List Byte) : Nat := leNat (hdr h 24 8)
/-- ENTRY of a header. -/
def hdrEntry (h : List Byte) : Nat := leNat (hdr h 32 8)
/-- SVN of a header. -/
def hdrSvn (h : List Byte) : Nat := leNat (hdr h 14 1)
/-- The version word that CHIP_FW_VER shows for a slot's header (R409). -/
def hdrVersion (slot : Nat) (h : List Byte) : Nat :=
  slot * 2 ^ 48 + leNat (hdr h 8 2) * 2 ^ 32 + leNat (hdr h 10 2) * 2 ^ 16 + leNat (hdr h 12 2)

/-- Is a local address in the range of the boot ROM and warden memory (R23)? -/
def wardenAddr (a : Nat) : Bool := decide (0xF000000000 ≤ a) && decide (a ≤ 0xFFFFFFFFFF)

/-- The distinguishing identifier of the firmware signer. -/
def fwSigner : List Byte := ascii "THODOM-FW"

/-- The checks of R444 in order: the cause code, 0 where the image verifies. -/
def checkImage (flash : Mem) (slot : Nat) (readError : Bool) (svn : Nat) (keyHash : List Byte) : Nat :=
  let h := flash.read (slotBase slot) 256
  let n := hdrLength h
  let load := hdrLoad h
  if readError then 8
  else if leNat (hdr h 0 4) ≠ 0x0D100F17 ∨ leNat (hdr h 4 2) ≠ 1
      ∨ !(allZero (hdr h 6 2) && allZero (hdr h 15 1) && allZero (hdr h 20 4) && allZero (hdr h 200 56)) then 2
  else if n % 64 ≠ 0 ∨ n < 64 ∨ n > 25165568 ∨ load % 64 ≠ 0 ∨ !wardenAddr load
      ∨ !wardenAddr (load + n) ∨ !wardenAddr (hdrEntry h) then 3
  else if sm3 (hdr h 72 64) ≠ keyHash then 4
  else if !sm2Verify fwSigner (beNat (hdr h 72 32)) (beNat (hdr h 104 32)) (hdr h 0 136)
      (beNat (hdr h 136 32)) (beNat (hdr h 168 32)) then 5
  else if hdrSvn h < svn then 6
  else if sm3 (flash.read (slotBase slot + 256) n) ≠ hdr h 40 32 then 7
  else 0

/-- The result of a slot's last check, none if it was not checked. -/
def slotResult (s : State) (slot : Nat) : Option (Nat × Nat × Nat) := alookup slot s.sec.slotInfo

/-- Records the result of a check. -/
def noteSlot (slot cause : Nat) (s : State) : State :=
  let h := s.flash.read (slotBase slot) 256
  { s with sec := { s.sec with
    slotInfo := aset slot (cause, hdrVersion slot h, hdrSvn h) s.sec.slotInfo
    erased := s.sec.erased.filter (· != slot) } }

/-- Lane remaps and soft repairs of the flash log are reapplied at a cold start (R284, R435). -/
def reapplyRepairs (s : State) : State :=
  each (upto 12) (fun k s =>
    let soft := (s.sec.logSoft.filter (·.1 == k)).map (·.2)
    let lanes := (s.sec.logLanes.filter (·.1 == k)).map (·.2)
    if soft.isEmpty && lanes.isEmpty then s
    else s.setStack k { s.stack k with softRows := soft, softUsed := soft.length % 256, lanes := lanes }) s

/-- TRAIN begins; in a cold start with the repairs of the flash log (R435). -/
def beginTrain (s : State) : State := if s.sec.kind = 0 then reapplyRepairs s else s

/-- A verified image runs: its body lies in warden memory, digest and header are kept (R445), and the
stacks are trained or checked next. -/
def startImage (slot : Nat) (s : State) : State :=
  let h := s.flash.read (slotBase slot) 256
  let body := s.flash.read (slotBase slot + 256) (hdrLength h)
  beginTrain { s with
    wmem := s.wmem.write (hdrLoad h) body
    sec := { s.sec with state := 2, batch := 0, runHeader := h, digest := hdr h 40 32
                        fwVer := hdrVersion slot h } }

/-- Both slots failed: SAFE (R442). -/
def enterSafe (s : State) : State :=
  let s := { s with sec := { s.sec with state := 6, fwVer := 0, readyT := s.now }
                    eth := { s.eth with link := 0 } }
  raiseEv .sec evSecSafe 0 s

/-- Sets CAUSE_A or CAUSE_B (R452). -/
def setCause (slot cause : Nat) (s : State) : State :=
  { s with sec := if slot = 0 then { s.sec with causeA := cause } else { s.sec with causeB := cause } }

/-- The boot ROM finishes a flash slot: the image runs, or the other slot is tried, or SAFE. -/
def slotDone (readError : Bool) (s : State) : State :=
  let slot := s.sec.slot
  let cause := if s.sec.failSlots.contains slot then 9
    else checkImage s.flash slot readError s.sec.svn s.sec.keyHash
  let s := noteSlot slot cause (setCause slot cause s)
  if cause = 0 then startImage slot s
  else
    let s := raiseEv .sec evSecSlotBad (detUnit slot cause 0) s
    if slot = 0 then { s with sec := { s.sec with slot := 1 } } else enterSafe s

/-- The warm start's check of the copy in warden memory (R437, R445). -/
def copyDone (s : State) : State :=
  let h := s.sec.runHeader
  let body := s.wmem.read (hdrLoad h) (hdrLength h)
  if !s.sec.digest.isEmpty && sm3 body == s.sec.digest then
    { s with sec := { s.sec with state := 2, batch := 0
                                 fwVer := hdrVersion (if s.sec.causeA = 0 then 0 else 1) h } }
  else { s with sec := { s.sec with
    slot := 0, mismatch := true, reloaded := true, causeA := 1, causeB := 1, erased := [0, 1] } }

/-- SLOT_VERIFY (R444). -/
def execSlotVerify (readError : Bool) (s : State) : Host.Outcome State Fault Refusal :=
  run (fun s => s.sec.state == 1 && !s.sec.inReset)
    (fun s => if s.sec.slot = 2 then copyDone s else slotDone readError s) s

/-! ## Training (R435, R437, R440, R441) -/

/-- Stacks 0–5 or 6–11. -/
def batchStacks (b : Nat) : List Nat := (upto 6).map fun i => 6 * (b % 2) + i

/-- The stacks whose training or check ends with batch b: in the first pass all that the log does not
name as retired, in a warm start's second pass those escalated, in the last those that failed once. -/
def batchMembers (s : State) (b : Nat) : List Nat :=
  (batchStacks b).filter fun k =>
    if b < 2 then !s.sec.logStacks.contains k && (s.stack k).state != 2
    else if b < 4 then s.sec.escalated.contains k
    else (s.stack k).trainFails == 1 && (s.stack k).state != 2

/-- A stack is retired (R279): its lines are lost, its log entry written. -/
def retireLogged (k : Nat) (s : State) : State :=
  let t := s.stack k
  let s := s.setStack k { t with state := 2, lines := [], migrating := false, maint := none, waiting := [] }
  let s := { s with sec := { s.sec with
    logStacks := if s.sec.logStacks.contains k then s.sec.logStacks else s.sec.logStacks ++ [k] } }
  raiseEv (.stk k) evHbmStackRetired (detUnit k 0 0) s

/-- The training of stack k has passed: its results and their CRC-32C are kept (R436). The results are free.
(DESIGN CHOICE, log entry 73) -/
def keepTraining (k : Nat) (s : State) : State :=
  let d := s.draw 64
  let t := d.2
  { t with sec := { t.sec with trained := t.sec.trained.filter (·.1 != k) ++ [(k, d.1, crc32c (leBytes 8 d.1))] } }

/-- Are stored results of stack k there, with their CRC (R437)? -/
def trainingKept (s : State) (k : Nat) : Bool :=
  s.sec.trained.any fun r => r.1 == k && crc32c (leBytes 8 r.2.1) == r.2.2

/-- A training of stack k failed: once more, or retired (R440). -/
def trainingFailed (k : Nat) (s : State) : State :=
  let t := s.stack k
  if t.trainFails = 0 then
    raiseEv (.stk k) evHbmTrainFail (detUnit k 0 0) (s.setStack k { t with trainFails := 1 })
  else retireLogged k s

/-- After batch b: the next batch with a member, or INIT. -/
def nextBatch (s : State) : Nat → Nat → State
  | 0, _ => { s with sec := { s.sec with state := 3 } }
  | fuel + 1, b =>
    if b ≥ 6 then { s with sec := { s.sec with state := 3 } }
    else if b < 2 || !(batchMembers s b).isEmpty then { s with sec := { s.sec with batch := b } }
    else nextBatch s fuel (b + 1)

/-- The batch that runs has ended with these failures; a check fails for want of stored results as well. -/
def batchDone (failed : List Nat) (s : State) : State :=
  let b := s.sec.batch
  let checking := b < 2 && s.sec.kind != 0
  let fails := fun (k : Nat) => failed.contains k || (checking && !trainingKept s k)
  let bad := (batchMembers s b).filter fails
  let s := if checking then s else each ((batchMembers s b).filter fun k => !fails k) keepTraining s
  let s := if checking then
      { s with sec := { s.sec with escalated := s.sec.escalated ++ bad } }
    else each bad trainingFailed s
  let s := if b = 1 && !s.sec.escalated.isEmpty then
      raiseEv .sec evStartEscalated (detUnit 0 0 (maskOf s.sec.escalated))
        { s with sec := { s.sec with kind := 2 } }
    else s
  nextBatch s 7 (b + 1)

/-- STACK_TRAINING_COMPLETE (R440). -/
def execStackTrainingComplete (failed : List Nat) (s : State) : Host.Outcome State Fault Refusal :=
  run (fun s => s.sec.state == 2 && !s.sec.inReset) (batchDone failed) s

/-- A pseudo-channel the log names: retired, or migrating with its kept copy pointer after a warm start
(R280). -/
def restoreChannel (migrating : Bool) (r : Nat × Nat) (s : State) : State :=
  let t := s.stack r.1
  if t.state = 2 then s
  else if migrating && s.sec.kind != 0 then
    s.setStack r.1 { t with state := 1, outPc := some r.2, migrating := true
                            copyPtr := aget 0 r.1 s.sec.keptPtrs
                            maint := some (.migration, r.2) }
  else s.setStack r.1 { t with state := 1, outPc := some r.2, migrating := false }

/-- The end of a stack's local range (R23). -/
def stackLo (k : Nat) : Nat := k * 0x1000000000

/-- Zeroing of stack k writes every sector whole and clears its poison (R435). -/
def zeroStack (k : Nat) (s : State) : State :=
  { s.setStack k { s.stack k with poison := [], lines := [], upsets := [] } with
    mem := s.mem.clear (stackLo k) (stackLo k + 0x1000000000) }

/-- Zeroing of the core SRAM. -/
def zeroSram (s : State) : State := { s with mem := s.mem.clear 0xC000000000 0xC0A0000000 }

/-- What INIT zeroes: everything in a cold start, everything if WARM_ZERO was sampled, else the stacks
that were escalated (R435, R437, R441). -/
def zeroing (s : State) : State :=
  if s.sec.kind = 0 || s.sec.sampZero then zeroSram (each (upto 12) zeroStack s)
  else each s.sec.escalated zeroStack s

/-- INIT ends (R433, R435): retirements are in force, memory zeroed, the device in service. -/
def initDone (s : State) : State :=
  let s := each s.sec.logStacks (fun k s => s.setStack k { s.stack k with state := 2, lines := [] }) s
  let s := each s.sec.logPcs (restoreChannel false) s
  let s := each s.sec.logMigrating (restoreChannel true) s
  let s := if s.sec.kind = 0 then
      { s with sec := { s.sec with logPcs := s.sec.logPcs ++ s.sec.logMigrating, logMigrating := [] } }
    else s
  let s := zeroing s
  let out := retiredStacks s
  let s := { s with sec := { s.sec with state := if out.isEmpty then 4 else 5, readyT := s.now
                                        escalated := [], failSlots := [] } }
  if out.isEmpty then raiseEv .sec evStartReady (detUnit s.sec.kind 0 (s.now - s.sec.t0)) s
  else raiseEv .sec evDeviceDegraded (detUnit 0 0 (maskOf out)) s

/-- INIT_COMPLETE (R433). -/
def execInitComplete (s : State) : Host.Outcome State Fault Refusal :=
  run (fun s => s.sec.state == 3 && !s.sec.inReset) initDone s

/-- A start begins at its first step, a cold one with the identity check (R450), with firmware from flash or from warden
memory. A load from flash checks the slots anew. (DEDUCED, log entry 57) -/
def startFrom (cold flash : Bool) (s : State) : State :=
  let s := if cold then checkIdentity s else s
  { s with
    hbmStacks := s.hbmStacks.map fun r => (r.1, { r.2 with trainFails := 0 })
    sec := { s.sec with
      state := 1, kind := if cold then 0 else 1, t0 := s.now, readyT := 0, batch := 0, escalated := []
      slot := if flash then 0 else 2
      causeA := if flash then 1 else s.sec.causeA
      causeB := if flash then 1 else s.sec.causeB
      erased := if flash then [0, 1] else s.sec.erased
      mismatch := false, reloaded := !cold && flash, inReset := false, coldAgain := false
      fwVer := 0 } }

/-- The start after a chip reset: a warm one loads from flash where RELOAD was sampled (R437, R438). -/
def beginStart (cold : Bool) (s : State) : State := startFrom cold (cold || s.sec.sampReload) s

/-- The start that follows a chip reset begins in its tick, unless RESET_N is low (R434). -/
def startAfter (s : State) : State := if s.module.resetN then beginStart s.sec.coldAgain s else s

/-- WARM_START (R437, R439): the chip reset ends; RESET_N is high again. -/
def execWarmStart (s : State) : Host.Outcome State Fault Refusal :=
  run (fun s => s.powered && s.sec.inReset) (fun s =>
    beginStart s.sec.coldAgain { s with module := { s.module with resetN := true } }) s

/-- START_WATCHDOG (R439): 8 s are over; the slot that ran counts as failed, and the new start loads from flash
(DEDUCED, log entry 57). -/
def execStartWatchdog (s : State) : Host.Outcome State Fault Refusal :=
  run (fun s => (s.sec.state == 1 || s.sec.state == 2 || s.sec.state == 3) && !s.sec.inReset && s.past s.sec.t0 800000000)
    (fun s =>
      let ran := if s.sec.state = 1 then s.sec.failSlots
        else s.sec.failSlots ++ [if s.sec.causeA = 0 then 0 else 1]
      let n := min 255 (s.sec.restarts + 1)
      let cold := s.sec.kind == 0
      startFrom cold true
        (raiseEv .slu evStartRestarted (detUnit 0 0 n) { s with sec := { s.sec with restarts := n, failSlots := ran } })) s

/-- CHIP_RESET (R417, R434): the scheduled chip reset takes effect, and the start begins in its tick. -/
def execChipReset (s : State) : Host.Outcome State Fault Refusal :=
  run (fun s => s.powered && s.slu.resets.any fun r => r.1 == 5 && decide (r.2.2 ≤ s.now))
    (fun s => startAfter (chipReset s)) s

/-- ACTIVATE (R449): 1,000 ticks after the response a chip reset with RELOAD = 1 begins; in SAFE, a cold
start without loss of power. -/
def execActivate (s : State) : Host.Outcome State Fault Refusal :=
  run (fun s => s.powered && match s.sec.activateAt with
      | some t => decide (t ≤ s.now)
      | none => false)
    (fun s =>
      let safe := s.sec.state == 6
      let t := chipResetTo true (s.field .sec 0x118 0 0 == 1) s
      if safe then beginStart true t else startAfter t) s

/-! ## SEC_CMD (R448, R452) -/

/-- A firmware request or SEC_CMD is refused with a cause (R457, R452). -/
def fwRefuse (op cause : Nat) (s : State) : State :=
  raiseEv .sec evFwUpdateBad (detUnit op cause 0) { s with sec := { s.sec with fwCause := cause } }

/-- SEC_CMD is served for the wardens and TMP only (R452). -/
def secIssuer : Issuer → Bool
  | .warden _ => true
  | .tmp .. => true
  | _ => false

/-- Does the slot hold an image that verifies with an SVN of at least n (R448)? -/
def slotAllows (s : State) (slot n : Nat) : Bool :=
  checkImage s.flash slot false s.sec.svn s.sec.keyHash == 0
    && decide (n ≤ hdrSvn (s.flash.read (slotBase slot) 256))

/-- BURN_SVN by SEC_CMD OP 1 (R448). -/
def burn (n : Nat) (s : State) : State :=
  if slotAllows s 0 n && slotAllows s 1 n then
    { s with sec := { s.sec with svn := max s.sec.svn n } }
  else fwRefuse 0 12 s

/-- BURN_SVN: SEC_CMD OP 1. -/
def execBurnSvn (who : Issuer) (v : Word) (s : State) : Host.Outcome State Fault Refusal :=
  run State.powered (fun s =>
    if secIssuer who then burn (bits v.toNat 13 8) s
    else raiseEv (issuerPage who) evAddrProtected (detAddr 0xE000004130 0xFFF who) s) s

/-- CLEAR_LOG_ENTRY: SEC_CMD OP 2 (R440). -/
def execClearLogEntry (who : Issuer) (v : Word) (s : State) : Host.Outcome State Fault Refusal :=
  run State.powered (fun s =>
    let k := bits v.toNat 3 0
    if !secIssuer who then raiseEv (issuerPage who) evAddrProtected (detAddr 0xE000004130 0xFFF who) s
    else if k > 11 then fwRefuse 0 13 s
    else { s with sec := { s.sec with logStacks := s.sec.logStacks.filter (· != k) } }) s

end Sys2Proof.Machine
end

