-- ==== Sys2Proof/Machine/Access.lean ====
section
/-! DEFINITION. Accesses of every kind to every home: reads and writes of the register pages (R387 to R394,
R398), the commands their write-only registers carry, what a page does once a pending value has applied,
and `submit`, the one way an access of a steward, a warden, the host or another device goes. -/

namespace Sys2Proof.Machine

/-! ## What registers read (R390 and the tables of each page) -/

/-- Does an input coil of the held row lack data, or an output coil stand in its way (R257)? -/
def coilWaits (s : State) (c n : Nat) : Bool × Bool :=
  let stw (store : Bool) : Bool := match (s.core c).coilWait with
    | some w => w.n == n && w.val.isSome == store
    | none => false
  match (s.core c).vec.run with
  | none => (stw false, stw true)
  | some x =>
    let r := VRec.of x.words
    let reads := (upto 3).any fun i => (r.strm i).onCoil && (r.strm i).coilNo == n
      && (if dependent r i then !dataShort s c x r
          else decide ((coilSupply s c x n).length < groupSize r x.row * (inPlace r i x.row).2))
    let owes := decide (64 ≤ (aget [] n x.out).length)
    (stw false || (x.hold.isSome && !backlog x && reads), stw true || owes)

/-- Entries of a record in a command coil (R175). -/
def recordEntries (n : Nat) : Nat := if n = 1 then 2 else 1

/-- CORE_COIL_PTR_n of a command coil (R248, R257): its consumer is never said to wait (DESIGN CHOICE, log entry 68). -/
def cmdCoilPtr (s : State) (c n : Nat) : Nat :=
  let p := s.eport c n
  fld (b2n ((s.core c).stalls.any fun t => t.port == n)) 41 41
    + fld p.read 31 24 + fld p.read 23 16 + fld ((p.read + recordEntries n * p.coil.length) % 32) 15 8 + fld p.read 7 0

/-- CORE_COIL_PTR_n (R257). -/
def coilPtr (s : State) (c n : Nat) : Nat :=
  let k := s.coil c n
  let (r, w) := coilWaits s c n
  fld k.wrOff 47 45 + fld k.rdOff 44 42 + fld (b2n w) 41 41 + fld (b2n r) 40 40 + fld (b2n k.cfgErr) 39 39
    + fld k.release 31 24 + fld k.belay 23 16 + fld k.write 15 8 + fld k.read 7 0

/-- CORE_COIL_CFG_n of the command coils (R257). -/
def cmdCoilCfg (n : Nat) : Nat :=
  fld 4 22 20 + fld (16 * n) 19 12 + fld (nth 0 [2, 0, 3] n) 9 8 + fld 1 5 4 + 2 + 1

/-- Read-only values of a core control page. -/
def coreValue (s : State) (c off : Nat) : Nat :=
  let r := s.core c
  if off < 0x200 then stwValue s c off
  else if off = 0x408 then r.satTotal
  else if off = 0x410 then satWindowCount s c
  else if off = 0x440 then mxStatus s c
  else if off = 0x448 then (r.mxFault.map (2 ^ 63 + ·)).getD 0
  else if off = 0x450 then r.arr.broadcast
  else if off = 0x460 then r.pruned
  else if off = 0x480 then vxStatus s c
  else if off = 0x488 then (r.vec.fault.map (2 ^ 63 + ·)).getD 0
  else if off = 0x4A8 then sfuStatus s c
  else if off = 0x4B0 then maskOf (r.sfu.progs.map (·.1))
  else if off = 0x4C8 then r.late
  else if 0x500 ≤ off ∧ off < 0x700 then
    let n := coilOf off
    if off % 0x20 = 0 then (if n < 3 then cmdCoilCfg n else 0)
    else if off % 0x20 = 8 then (if n < 3 then cmdCoilPtr s c n else coilPtr s c n)
    else 0
  else 0

/-- Read-only values of a page. -/
def roValue (s : State) (p : PageId) (off : Nat) : Nat :=
  if off = 0x018 then b2n (s.page p).hold
  else if off = 0x048 then (s.page p).evAck
  else if off < 0x100 then headerValue s p off
  else match p with
    | .core c => coreValue s c off
    | .chip => chipValue s off | .evt => evtValue s off | .gov => govValue s off | .slu => sluValue s off
    | .sec => secValue s off | .pres => presValue s off | .knot => knotValue s off | .dist => 0
    | .fab => fabValue s off | .eth => ethValue s off | .roce => roceValue s off
    | .fport i => fportValue s i off | .stk k => stkValue s k off | .msc k => mscValue s k off
    | .spl k => splValue s k off

/-- The bits of a register that its stored value shows: its RWB and RW fields, and in two registers bits that
the hardware sets (R50, R116). -/
def storedMask (p : PageId) (off : Nat) : Nat :=
  match p with
  | .core _ => if off = 0x418 ∨ off = 0x468 then ones64 else maskBits
  | _ => maskBits
where
  maskBits : Nat := match regDef p off with
    | some d => if off = 0x018 ∨ off = 0x048 then 0 else d.rwb ||| d.rw
    | none => 0

/-- Registers whose reads draw free values: the two cycle counters of a core (R96, R146), and what a stack's IEEE 1500
wrapper shifts out. -/
def freeCounter (p : PageId) (off : Nat) : Bool :=
  match p with
  | .core _ => off == 0x458 || off == 0x490
  | .stk _ => off == 0x148
  | _ => false

/-- A cycle counter reads within its bounds; the wrapper's word is free. -/
def drawnValue (p : PageId) (off : Nat) (s : State) : Nat × State :=
  match p with
  | .core c =>
    let x := s.core c
    let (v, k, s) := (if off = 0x458 then x.mxActive else x.vxActive).read s
    (v % 2 ^ 64, s.setCore c (if off = 0x458 then { x with mxActive := k } else { x with vxActive := k }))
  | _ => s.draw 64

/-- The 64-bit value of a register. -/
def regValue (p : PageId) (off : Nat) (s : State) : Nat × State :=
  if freeCounter p off then drawnValue p off s
  else ((s.reg p off &&& storedMask p off) ||| roValue s p off, s)

/-! ## After a pending value has applied -/

/-- The Ethernet link goes down (R367): the frames in transmission are lost, those that a pause holds among
them. -/
def ethDown (s : State) : State :=
  raiseEv .eth evEthLinkDown 0
    { s with eth := { s.eth with link := 0, downs := (s.eth.downs + 1) % 2 ^ 32, paused := [], txHeld := [] } }

/-- ETH_CFG has applied: EN or PHY has changed (R385). -/
def ethConfigured (old : Nat) (s : State) : State :=
  let new := s.reg .eth 0x100
  let go (s : State) : State := if s.eth.link = 3 then ethDown s else s
  if !bit new 0 then (if bit old 0 then { go s with eth := { (go s).eth with link := 0 } } else s)
  else if !bit old 0 then { s with eth := { s.eth with link := 1 } }
  else if bit new 1 != bit old 1 then { go s with eth := { (go s).eth with link := 1 } }
  else s

/-- The lines of each set beyond the `room` most recently used ones. -/
def beyondRoom (room : Nat) (lines : List Line) : List Line :=
  (lines.foldl (fun (acc : List Line × List Line) l =>
    let n := (acc.1.filter fun m => lineSet m.idx == lineSet l.idx).length
    if n < room then (acc.1 ++ [l], acc.2) else (acc.1, acc.2 ++ [l])) ([], [])).2

/-- The lines of each set beyond those that PART_WAYS leaves the cache are evicted (R267). -/
def trimSets (k : Nat) (s : State) : State := each (beyondRoom (16 - partWays s k) (s.stack k).lines) (evict k) s

/-- A change of PART_WAYS is due: the write-back before it begins, or begins at a later refresh interval where a command
runs (R267, R286). (DESIGN CHOICE, log entry 54) -/
def startPartFlush (k : Nat) (s : State) : State :=
  let t := s.stack k
  if t.busy then s else s.setStack k { t with busy := true, mscCmd := 3, mscSet := 0 }

/-- Does the write-back before a change of PART_WAYS wait for a held pseudo-channel (R264)? -/
def partFlushWaits (s : State) (k : Nat) : Bool :=
  let t := s.stack k
  let ways := ((s.page (.msc k)).pend.find? fun r => r.1 == 0x100).map fun r => bits (pendValue s (.msc k) r.1 r.2) 6 4
  let w := ways.getD 0
  let blocked := fun (l : Line) => l.dirty && lineHeld t l.idx
  ((s.splice k).part.any fun l => l.dirty && (hbmHeld s (k * 0x1000000000 + l.idx * 128) 128 .ordinary).isSome)
    || (beyondRoom (16 - (if w ≤ 4 then w else 0)) t.lines).any blocked

/-- The partition has been written back: the change applies. -/
def partFlushed (k : Nat) (s : State) : State :=
  let s := partFlush k s
  trimSets k (applyAll (.msc k) ((s.page (.msc k)).pend.filter fun r => r.1 == 0x100) s)

/-- What a page does when values have applied; `before` is the state before. -/
def configured (p : PageId) (before s : State) : State :=
  match p with
  | .chip => if s.deviceId = before.deviceId then s else identApplied s
  | .fab => mirrorsConfigured s
  | .fport i => portConfigured i (portEnabled before i) (before.field p 0x100 1 1 == 1) s
  | .eth => ethConfigured (before.reg .eth 0x100) s
  | .stk k =>
    let b := before.field p 0x150 0 0
    let n := s.field p 0x150 0 0
    if b = n then s else if n = 1 then enterBringup k s else leaveBringup k s
  | _ => s

/-- A list of pending registers of a page applies, with all that follows. -/
def applyList (p : PageId) (l : List (Nat × Pend)) (s : State) : State :=
  if l.isEmpty then s
  else match p with
    | .core c =>
      let coils := l.filter fun r => decide (0x500 ≤ r.1) && decide (r.1 < 0x700)
      let rest := l.filter fun r => !(decide (0x500 ≤ r.1) && decide (r.1 < 0x700))
      let s := applyAll p rest s
      let s := if rest.any (fun r => r.1 == 0x400) then satRestart c s else s
      applyCoilCfgs c coils s
    | .msc k =>
      let parts := fun (r : Nat × Pend) => r.1 == 0x100 && bits (pendValue s p r.1 r.2) 6 4 != s.field p 0x100 6 4
      let t := applyAll p (l.filter fun r => !parts r) s
      if l.any parts then startPartFlush k t else t
    | _ => configured p s (applyAll p l s)

/-- A boundary of a page arrives. -/
def boundary (p : PageId) (b : Boundary) (s : State) : State := applyList p (due s p b) s

/-- FORCE: everything that pends applies (R397). -/
def forceAll (p : PageId) (s : State) : State := applyList p (s.page p).pend s

/-! ## Commands in write-only fields -/

/-- Operations that wait at the bollards of core c now are older than the standing TAKE that begins (R186);
when it ends, the others need not stand behind it. -/
def noYounger (c : Nat) (s : State) : State :=
  let r := s.core c
  s.setCore c { r with bol := { r.bol with waits := r.bol.waits.map fun w => { w with younger := false } } }

/-- A waiting WRS completes and disarms the monitor (R174, R181). -/
def wrsEnd (c : Nat) (s : State) : State :=
  let s := disarm c s
  let w := (s.core c).stw
  s.setStw c { w with pc := w.pc + BitVec.ofNat 64 4, instret := (w.instret + 1) % 2 ^ 64, wait := .nothing }

/-- A steward leaves its state for IDLE (R174): a WRS that waits completes first. -/
def enterIdle (c : Nat) (s : State) : State :=
  let w := (s.core c).stw
  let s := if w.st = .idle then s else noYounger c s
  let s := match w.wait with
    | .wrs _ _ => wrsEnd c s
    | _ => s
  s.setStw c { (s.core c).stw with st := .idle, wait := .nothing, stopping := false }

/-- CORE_STW_CTL with CMD 1 (R174): its own steward, or one with no access in progress, stops at once; else
when the access has completed. -/
def moveIdle (who : Issuer) (c : Nat) (s : State) : State :=
  let w := (s.core c).stw
  match w.wait with
  | .access len _ _ =>
    if who = .steward c then
      enterIdle c (s.setStw c { w with pc := w.pc + BitVec.ofNat 64 len, instret := (w.instret + 1) % 2 ^ 64 })
    else s.setStw c { w with stopping := true }
  | _ => enterIdle c s

/-- CORE_COIL_CMD_n. -/
def coilCommand (c off v : Nat) (s : State) : State :=
  let n := coilOf off
  if 3 ≤ n ∧ n ≤ 15 then coilCmd c n (bits v 2 0) s else s

/-- KNOT_CMD as the table takes it (R191 to R193). -/
def knotCommand (v : Nat) (s : State) : State :=
  let cmd := bits v 9 8
  let slot := bits v 5 0
  if bit v 6 then
    if 16 ≤ slot then s else if cmd = 1 then cancelHall slot s else if cmd = 2 then arriveDevice slot s else s
  else if cmd = 1 then cancelChip slot s else s

/-- An arrival or a KNOT_CMD reaches the knot table, which takes it as the dike tick ends (R188; DEDUCED, log entry 70). -/
def toKnots (i : KnotIn) (s : State) : State := { s with knotIn := s.knotIn ++ [i] }

/-- FPORT_CMD (R314, R315). -/
def portCommand (p v : Nat) (s : State) : State :=
  let h := if (s.port p).split then bits v 2 2 else 0
  let cmd := bits v 1 0
  let st := (s.link p h).state
  if cmd = 1 then (if st = 3 ∨ st = 6 then beginRetrain p h s else s)
  else if cmd = 2 then (if linkRetired (s.port p) h ∨ st = 5 ∨ (s.port p).mode ≠ 0 then reinstate p h s else s)
  else s

/-- STK_REPAIR_CMD. -/
def repairCommand (k v : Nat) (s : State) : State :=
  let op := bits v 63 62
  if op = 0 then s else repairCmd k op v s

/-- MSC_CMD: ignored while BUSY (R286). -/
def mscCommand (k v : Nat) (s : State) : State :=
  let cmd := bits v 1 0
  let t := s.stack k
  if t.busy || !(cmd == 1 || cmd == 2) || !s.stackUp k then s
  else s.setStack k { t with busy := true, mscCmd := cmd, mscSet := 0 }

/-- SEC_CMD (R448, R452). -/
def secCommand (v : Nat) (s : State) : State :=
  let op := bits v 17 16
  let k := bits v 3 0
  if op = 1 then burn (bits v 13 8) s
  else if op = 2 ∧ k ≤ 11 then
    { s with sec := { s.sec with logStacks := s.sec.logStacks.filter (· != k) } }
  else fwRefuse 0 13 s

/-- The block that reads an image reads them one at a time. -/
def sameReader (i j : Image) : Bool :=
  match i, j with
  | .mask _, .mask _ => true
  | .route _, .route _ => true
  | .tag k _, .tag l _ => k == l
  | _, _ => false

/-- A block reads an image, behind those of it that wait at a crossing (R416). -/
def loadImage (i : Image) (s : State) : State :=
  if s.images.any (sameReader i) then waitImage i s
  else match i with
    | .mask v => loadMask v s
    | .route src => routeLoad src s
    | .tag k desc => tagOpen k desc s

/-- What a write of the value v does at once through the write-only fields of a register. -/
def command (who : Issuer) (p : PageId) (off v : Nat) (s : State) : State :=
  match p with
  | .core c =>
    if off = 0x110 then (if bits v 3 0 = 1 then moveIdle who c s else s)
    else if off = 0x160 then toKnots (.arrive c (bits v 5 0) (bits v 63 32)) s
    else if off = 0x4A0 then queueLoad c (word v) s
    else if 0x560 ≤ off ∧ off < 0x700 ∧ off % 0x20 = 0x18 then coilCommand c off v s
    else s
  | .slu => if off = 0x138 then sluCmd v s else if off = 0x140 then sluReset v s else s
  | .sec => if off = 0x130 then secCommand v s else s
  | .pres => if off = 0x100 then presenceCmd v s else s
  | .knot => if off = 0x100 then loadImage (.mask v) s else if off = 0x108 then toKnots (.cmd v) s else s
  | .fab =>
    if off = 0x108 then loadImage (.route (bits v 39 0)) s
    else if off = 0x118 then fanCmd (bits v 39 0) s
    else if off = 0x408 then (if bits v 5 4 = 1 then resumeMirror (bits v 3 0) s else s)
    else s
  | .fport i => if off = 0x120 then portCommand i v s else s
  | .stk k =>
    if off = 0x130 then repairCommand k v s
    else if off = 0x140 then
      (if (s.stack k).state = 3 then s.setStack k { s.stack k with instr1500 := bits v 7 0 } else s)
    else s
  | .msc k => if off = 0x108 then mscCommand k v s else s
  | .spl k =>
    if off = 0x100 then loadImage (.tag k (bits v 39 0)) s
    else if off = 0x108 then (if bits v 17 16 = 1 then tagAbort k (bits v 11 0) s else s)
    else if off = 0x138 then sendCmd k (bits v 39 0) s
    else if off = 0x148 then auxCmd k (bits v 39 0) s
    else s
  | _ => s

/-! ## Writes (R388, R392, R394, R397) -/

/-- APPLY_CTL (R397). A write that carries APPLY and FORCE acts as FORCE. -/
def applyCtl (p : PageId) (v : Nat) (s : State) : State :=
  let s := setHold p (bit v 0) s
  if bit v 9 then forceAll p s
  else if bit v 8 then releasePending p s
  else s

/-- The knot slots that are idle, whose pending configuration applies at once (R191). -/
def applyIdleSlots (s : State) : State :=
  let slots := ((s.page .knot).pend.filterMap fun r => match boundaryOf .knot r.1 with
    | .slot k => some k
    | _ => none).eraseDups
  each slots (fun k s =>
    let idle := if k < 64 then (s.chipSlot k).arrived.isEmpty
      else if k < 80 then !(s.hallSlot (k - 64)).pending else true
    if idle then applySlot k s else s) s

/-- RW fields take their value at once. -/
def writeRw (p : PageId) (off mask v : Nat) (s : State) : State :=
  match p, off with
  | _, 0x048 => ackEvents p v s
  | .core c, 0x118 => s.setStw c { (s.core c).stw with msip := bit v 0 }
  | .stk k, 0x148 => if (s.stack k).state = 3 then s.setStack k { s.stack k with data1500 := v } else s
  | _, _ =>
    if mask = 0 then s
    else s.setReg p off ((s.reg p off &&& (ones64 ^^^ mask)) ||| (v &&& mask))

/-- A whole register is written: each field by its access code. -/
def commitWrite (who : Issuer) (p : PageId) (off v : Nat) (s : State) : State :=
  match regDef p off with
  | none => s
  | some d =>
    let s := pendWrite p off d.rwb v s
    let s := if off = 0x018 then applyCtl p v s else writeRw p off d.rw v s
    let s := command who p off v s
    if p = .knot then applyIdleSlots s else s

/-- CORE_COIL_DATA_n of a data coil, by its offset on a core's page. -/
def coilDataOf (p : PageId) (off : Nat) : Option (Nat × Nat) :=
  match p with
  | .core c => if 0x560 ≤ off ∧ off < 0x700 ∧ off % 0x20 = 0x10 then some (c, coilOf off) else none
  | _ => none

/-- Registers of the command coils that do not exist (R257). -/
def coilHole (p : PageId) (off : Nat) : Bool :=
  match p with
  | .core _ => decide (0x500 ≤ off) && decide (off < 0x560) && (off % 0x20 == 0x10 || off % 0x20 == 0x18)
  | _ => false

/-- A write of 4 or 8 B at an offset of a page (R387, R388, R392). -/
def pageStore (p : PageId) (off n v : Nat) (q : Req) (s : State) : Option Resp × State :=
  let o := alignDown off 8
  if !(n == 4 || n == 8) || off % n != 0 || (regDef p o).isNone || coilHole p o then refuse evAddrUnmapped q q.addr s
  else match coilDataOf p o with
    | some (c, i) => if n = 8 then coilAccess c i (some (word v)) q s else refuse evAddrUnmapped q q.addr s
    | none =>
      if p = .sec ∧ o = 0x130 ∧ !secIssuer q.who then refuse evAddrProtected q q.addr s
      else if n = 8 then (some (.ok []), commitWrite q.who p o v (dropStage p o q.who s))
      else if off % 8 = 0 then (some (.ok []), stageLow p o v q.who s)
      else
        let (x, s) := commitHigh p o v q.who s
        (some (.ok []), commitWrite q.who p o x s)

/-- A read of 4 or 8 B at an offset of a page (R387, R391); LR.D of a steward on its own CORE_KNOT_SEEN arms
its monitor (R181, R388). -/
def pageLoad (p : PageId) (off n : Nat) (lr : Bool) (q : Req) (s : State) : Option Resp × State :=
  let o := alignDown off 8
  let own := match p, q.who with
    | .core c, .steward d => c == d && off == 0x168 && n == 8
    | _, _ => false
  if !(n == 4 || n == 8) || off % n != 0 || (regDef p o).isNone || coilHole p o || (lr && !own) then
    refuse evAddrUnmapped q q.addr s
  else match coilDataOf p o with
    | some (c, i) => if n = 8 then coilAccess c i none q s else refuse evAddrUnmapped q q.addr s
    | none =>
      let (v, s) := regValue p o s
      if n = 8 then
        let s := match lr, q.who with
          | true, .steward c => armMonitor c (seenKey c) (accessAddr s c q.addr) s
          | _, _ => s
        (some (.ok (leBytes 8 v)), s)
      else
        let (x, s) := if off % 8 = 0 then readLow p o v q.who s else readHigh p o v q.who s
        (some (.ok (leBytes 4 x)), s)

/-- An access to a register page. -/
def pageAccess (p : PageId) (off : Nat) (q : Req) (acc : Acc) (s : State) : Option Resp × State :=
  match acc with
  | .load n lr => pageLoad p off n lr q s
  | .store bs => pageStore p off bs.length (leNat bs) q s
  | _ => refuse evAddrUnmapped q q.addr s

/-- An access to an engine port. -/
def portAccess (c p off : Nat) (q : Req) (acc : Acc) (s : State) : Option Resp × State :=
  match acc with
  | .load n false => portLoad c p off n q s
  | .store bs => portStore c p off bs.length (leNat bs) q s
  | _ => refuse evAddrUnmapped q q.addr s

/-- A warden's access to the boot ROM and warden memory. -/
def wardenAccess (a : Nat) (q : Req) (acc : Acc) (s : State) : Option Resp × State :=
  match acc with
  | .load n _ => (some (.ok (s.wmem.read a n)), s)
  | .store bs => (some (.ok []), { s with wmem := s.wmem.write a bs })
  | _ => refuse evAddrUnmapped q a s

/-! ## One access -/

/-- Serves an access at its home on this device: an answer now, or none where it is held, waits, stalls or
awaits its mirror copy. -/
def serveAny (q : Req) (acc : Acc) (cls : MemClass) (mirror : Bool) (s : State) (inside' : Bool := false) :
    Option Resp × State :=
  match barrier s q acc cls inside' with
  | .refused code a => refuse code q a s
  | .held g => (none, hold g q acc cls s)
  | .clear => match homeOf s q.addr with
    | .hbm _ => plainAccess q acc cls mirror s
    | .sram _ _ => plainAccess q acc cls mirror s
    | .sync key => aliasAccess q key acc s
    | .bollard c n => bollardAccess c n (q.addr % 8 == 0) q acc s
    | .ctrl c off => pageAccess (.core c) off q acc s
    | .chip (some p) off => pageAccess p off q acc s
    | .port c p off => portAccess c p off q acc s
    | .warden a => wardenAccess a q acc s
    | _ => refuse evAddrUnmapped q q.addr s

/-- An access that has reached this device: its answer, if there is one, is on its way. -/
def submit (q : Req) (acc : Acc) (s : State) : State := answerOpt q (serveAny q acc .ordinary true s)

/-- An access to any device, by its hall address. -/
def submitHall (who : Issuer) (hall : Nat) (acc : Acc) (cont : Cont) (forwarded : Bool) (s : State) : State :=
  let q : Req := ⟨who, localOf hall, cont, devOf hall⟩
  match remoteOf s hall with
  | none => submit q acc s
  | some d =>
    match remoteRequest q d acc forwarded none s with
    | some s => s
    | none => answerOpt q (refuseRemote d q s)

/-- A register of this device is written by its issuer with a value: the access that a row of the table
stands for. -/
def writeReg (who : Issuer) (p : PageId) (off : Nat) (v : Nat) (s : State) : State :=
  submit ⟨who, pageBase p + off, .none, 0xFFF⟩ (.store (leBytes 8 v)) s

/-- A port register is written. -/
def writePort (who : Issuer) (c p off : Nat) (v : Nat) (s : State) : State :=
  submit ⟨who, pageBase (.core c) + portShadow p off, .none, 0xFFF⟩ (.store (leBytes 8 v)) s

/-- Is a gate open: the polder ACTIVE, the pseudo-channel not held, room in the pool? -/
def gateOpen (s : State) : Gate → Bool
  | .polder p => (s.polder p).state == 0
  | .channel k pc => !(s.stack k).channelHeld pc
  | .stack k => !poolFull s k
  | .lost => false

/-- The stack whose controller a gate belongs to. -/
def gateStack : Gate → Option Nat
  | .channel k _ => some k | .stack k => some k
  | _ => none

/-- What may be served next at a gate: at a stack the oldest request of each source, from the tie pointer on (R261); at a
polder's crossing any. -/
def gateHeads (g : Gate) (s : State) : List Held :=
  let mine := s.held.filter fun h => h.gate == g
  match gateStack g with
  | some k => (upto 4).filterMap fun i => mine.find? fun h => sourceIndex h.req.who == ((s.stack k).srcPtr + i) % 4
  | none => mine

/-- A tie among the sources of a stack moves its pointer past the winner (R261). -/
def passPointer (g : Gate) (heads : List Held) (h : Held) (s : State) : State :=
  let equal := fun (x : Held) => !dryBefore x.tdry h.tdry && !dryBefore h.tdry x.tdry
  match gateStack g with
  | some k => if (heads.filter equal).length < 2 then s
    else s.setStack k { s.stack k with srcPtr := (sourceIndex h.req.who + 1) % 4 }
  | none => s

/-- Is it the copy of a mirrored write, which is not mirrored again? -/
def isCopy : Cont → Bool
  | .respond opc _ _ _ _ => opc == 0x0D
  | _ => false

/-- A request held at a gate is served; the fence it has passed stays behind it. -/
def serveHeld (h : Held) (s : State) : State :=
  let past := match h.gate with
    | .polder _ => true
    | _ => false
  answerOpt h.req (serveAny h.req h.acc h.cls (!isCopy h.req.cont) { s with held := s.held.erase h } past)

/-- A gate serves what it held while it is open, the earliest t_dry first (R213, R215, R261). -/
def openGate (g : Gate) : Nat → State → State
  | 0, s => s
  | fuel + 1, s =>
    let heads := gateHeads g s
    match best (fun a b => !dryBefore b.tdry a.tdry) heads with
    | none => s
    | some h => if gateOpen s g then openGate g fuel (serveHeld h (passPointer g heads h s)) else s

end Sys2Proof.Machine
end

