-- ==== Sys2Proof/Machine/Host.lean ====
section
/-! DEFINITION. The Ethernet host port (R363 to R385): frames, the RoCEv2 responder, DCQCN, and TMP with its
register, queue-pair, region, event-destination, firmware and attestation requests (R379 to R382, R446 to
R451). -/

namespace Sys2Proof.Machine

/-! ## Frames (R364 to R367) -/

/-- Is the port up and the device in a state in which it takes frames (R433, R434, R442)? -/
def ethReady (s : State) : Bool :=
  (s.live || s.sec.state == 6) && s.eth.link == 3

/-- A frame is dropped and counted; the count holds at 0xFFFF (R385). -/
def dropFrame (s : State) : State :=
  { s with eth := { s.eth with dropped := min 0xFFFF (s.eth.dropped + 1) } }

/-- ETH_CFG as it is in force: its reset value in SAFE (R442). -/
def ethCfg (s : State) : Nat := if s.sec.state = 6 then regReset .eth 0x100 else s.reg .eth 0x100

/-- Does the MAC take the frame: its kind, its length, its destination and its VLAN (R364, R365)? `extra` names one more
destination address that the kind of frame may have. (DEDUCED, log entry 37) -/
def macTakes (s : State) (f : Frame) (extra : Nat) : Bool :=
  let c := ethCfg s
  !f.other && decide (f.len ≤ 9216) && (f.dstMac == s.eth.mac || f.dstMac == extra)
    && (!bit c 15 || f.vlan == some (bits c 27 16))

/-- The link-local address that the MAC address forms by the modified EUI-64 rule (R442). -/
def linkLocal (mac : Nat) : Nat :=
  0xFE80 * 2 ^ 112 + ((bits mac 47 24 ^^^ 0x020000) * 2 ^ 40 + 0xFFFE * 2 ^ 24 + bits mac 23 0)

/-- Is an address one of the device's own? In SAFE it has its link-local address only (R442). -/
def ownIp (s : State) (v6 : Bool) (ip : Nat) : Bool :=
  if s.sec.state = 6 then v6 && ip == linkLocal s.eth.mac
  else if v6 then ip == s.eth.ipv6 else ip == s.eth.ipv4

/-- Does the device take an IP datagram: whole, and for one of its addresses (R364)? -/
def ipTakes (s : State) (f : Frame) : Bool :=
  macTakes s f s.eth.mac && !f.fragment && ownIp s f.v6 f.dstIp

/-- The priority of RoCE traffic, PRIO_A (R366). -/
def prioA (s : State) : Nat := bits (ethCfg s) 11 9
/-- The priority of TMP traffic, PRIO_B. -/
def prioB (s : State) : Nat := bits (ethCfg s) 14 12

/-- The ECN field of a frame that the device sends: every IP packet has ECT(0), 0b10 (R366); other frames have none. -/
def Msg.ecn : Msg → Option Nat
  | .ack .. | .readResponse .. | .atomicResponse .. | .cnp .. | .tmp .. | .events .. | .neighbour .. => some 2
  | .arp .. | .pfc .. | .flit .. | .pmbus .. => none

/-- The class of a frame in the transmit arbiter (R377); PFC frames are sent ahead of all others. Atomic responses, which
the rule does not list, go with the ACKs. (DESIGN CHOICE, log entry 76) -/
def txClass : Msg → Nat
  | .tmp .. => 1 | .events .. => 2 | .readResponse .. => 3 | _ => 0

/-- The local QPN of context i (R368). -/
def qpn (i : Nat) : Nat := i + 2

/-- The context of a local QPN (R368). -/
def qpOf (qpn : Nat) : Nat := qpn - 2

/-- Does the rate of its queue pair allow a read response in this tick (R376, R377)? -/
def rateAllows (s : State) (qpn : Nat) : Bool := decide ((s.qp (qpOf qpn)).rateAt < (s.now + 1) * 1000)

/-- The line time that a read response takes from its queue pair's rate, in units of 1/1,000 of a dike tick: its data and
82 B beside them, 102 B under IPv6, at rc kb/s. (DESIGN CHOICE, log entry 76) -/
def rateCost (q : Qp) (n : Nat) : Nat := cdiv ((n + (if q.v6 then 102 else 82)) * 800000000) (max 1 q.rc)

/-- May a frame leave, with those of `before` waiting ahead of it: its priority is not paused, the rate allows a read
response, and no earlier frame of its class and queue pair waits (R366, R377)? -/
def txMay (s : State) (before : List Tx) (t : Tx) : Bool :=
  !s.eth.paused.contains t.prio && (txClass t.msg != 3 || rateAllows s t.qpn)
    && !(before.any fun b => txClass b.msg == txClass t.msg && b.qpn == t.qpn && t.qpn != 0)

/-- A read response has left: its bytes count for DCQCN, and the rate allows the next one after its line time. -/
def rateSpent (qpn n : Nat) (s : State) : State :=
  let q := s.qp (qpOf qpn)
  s.setQp (qpOf qpn) { q with bytes := q.bytes + n, rateAt := max (1000 * s.now) q.rateAt + rateCost q n }

/-- A frame leaves; the pointer of its class rotates past the winner. -/
def txSend (t : Tx) (s : State) : State :=
  match t.msg with
  | .readResponse _ _ data =>
    rateSpent t.qpn data.length ({ s with eth := { s.eth with readPtr := t.qpn + 1 } }.emit t.msg)
  | .tmp .. | .events .. => s.emit t.msg
  | _ => { s with eth := { s.eth with ackPtr := t.qpn + 1 } }.emit t.msg

/-- A frame of a priority leaves, or waits for the transmit arbiter (R366, R377); it is lost while the link is
down (R367). -/
def transmit (prio qpn : Nat) (m : Msg) (s : State) : State :=
  if s.eth.link ≠ 3 then s
  else if txMay s s.eth.txHeld ⟨prio, qpn, m⟩ then txSend ⟨prio, qpn, m⟩ s
  else { s with eth := { s.eth with txHeld := s.eth.txHeld ++ [⟨prio, qpn, m⟩] } }

/-- The waiting frames that may leave, with their places. -/
def txReady (s : State) (before : List Tx) : List Tx → List (Nat × Tx)
  | [] => []
  | t :: ts => (if txMay s before t then [(before.length, t)] else []) ++ txReady s (before ++ [t]) ts

/-- Of two frames of a class, does the first win: the lower QPN from the pointer on, or the older (R377)? -/
def txBefore (ptr : Nat) (a b : Nat × Tx) : Bool :=
  let r (n : Nat) : Nat := (n + 0x10000 - ptr) % 0x10000
  decide (r a.2.qpn < r b.2.qpn) || (a.2.qpn == b.2.qpn && decide (a.1 < b.1))

/-- The winner among the frames of a class. -/
def txWinner (s : State) (k : Nat) (ready : List (Nat × Tx)) : Option (Nat × Tx) :=
  let ptr := if k = 0 then s.eth.ackPtr else if k = 3 then s.eth.readPtr else 0
  (ready.filter fun t => txClass t.2.msg == k).foldl (fun acc t => match acc with
    | none => some t
    | some b => if txBefore ptr t b then some t else some b) none

/-- The transmit arbiter sends until no waiting frame may leave (R377). -/
def txDrain : Nat → State → State
  | 0, s => s
  | fuel + 1, s =>
    let ready := txReady s [] s.eth.txHeld
    match [0, 1, 2, 3].findSome? fun k => txWinner s k ready with
    | none => s
    | some (i, t) => txDrain fuel (txSend t { s with eth := { s.eth with txHeld := s.eth.txHeld.eraseIdx i } })

/-- Waiting frames leave in this tick, as their queue pairs' rates allow. -/
def txOn (s : State) : State := if s.powered && s.eth.link == 3 then txDrain (s.eth.txHeld.length) s else s

/-- A pause of these priorities ends: what it held leaves. -/
def unpause (prios : List Nat) (s : State) : State :=
  txOn { s with eth := { s.eth with paused := s.eth.paused.filter fun p => !prios.contains p } }

/-- A PFC frame (R366): the named priorities are paused, or go on. -/
def pfc (prios : List Nat) (pause : Bool) (s : State) : State :=
  if pause then { s with eth := { s.eth with paused := (s.eth.paused ++ prios).eraseDups } }
  else unpause prios s

/-- An ARP request for the IPv4 address is answered; SAFE has no such address (R364, R442). -/
def arpAnswer (f : Frame) (target ip mac : Nat) (s : State) : State :=
  if macTakes s f 0xFFFFFFFFFFFF && s.sec.state != 6 && target == s.eth.ipv4 then
    s.emit (.arp s.eth.ipv4 s.eth.mac ip mac)
  else dropFrame s

/-- The solicited-node multicast address of a target. -/
def solicited (target : Nat) : Nat := 0x3333FF000000 + bits target 23 0

/-- An IPv6 neighbour solicitation for the device is answered. -/
def ndAnswer (f : Frame) (target : Nat) (s : State) : State :=
  if macTakes s f (solicited target) && ownIp s true target then s.emit (.neighbour target s.eth.mac f.srcIp)
  else dropFrame s

/-! ## Checks of a RoCE request (R369 to R371) -/

/-- The BTH opcode of a packet (R368, R457). -/
def bthOpcode (op : RoceOp) (p : RocePkt) : Nat :=
  let g := p.seg
  match op with
  | .write => (match g with
    | .first => 0x06 | .middle => 0x07 | .last => 0x08 | .only => 0x0A)
  | .imm => if g = .only then 0x0B else 0x09
  | .send => (match g, p.form with
    | .first, _ => 0x00 | .middle, _ => 0x01
    | .last, .plain => 0x02 | .last, .immediate => 0x03 | .last, .invalidate => 0x16
    | .only, .plain => 0x04 | .only, .immediate => 0x05 | .only, .invalidate => 0x17)
  | .read => 0x0C | .cmpSwap => 0x13 | .fetchAdd => 0x14

/-- The kinds of target that R370 tells apart. -/
inductive RoceRow where
  | memory | sync | page | bollard | closed | unmapped
deriving DecidableEq, Repr

/-- The row of R370 for a local address. -/
def roceRow (a : Nat) : RoceRow :=
  if a < 0xC000000000 then (if a % 0x1000000000 < 0xF60000000 then .memory else .unmapped)
  else if a < 0xC0A0000000 then .memory
  else if 0xC800000000 ≤ a ∧ a < 0xC8A0000000 then .sync
  else if 0xCC00000000 ≤ a ∧ a < 0xCF00000000 then .sync
  else if 0xD000000000 ≤ a ∧ a < 0xD00A000000 then
    (let o := a % 0x4000
     if o < 0x1000 then .page else if o < 0x1C00 then .closed
     else if 0x2000 ≤ o ∧ o < 0x2200 then .bollard else .unmapped)
  else if 0xE000000000 ≤ a ∧ a < 0xE001000000 then .page
  else if 0xF000000000 ≤ a then .closed
  else .unmapped

/-- Does a message of n bytes stay within one row, and in memory within one range? -/
def oneRow (a n : Nat) : Bool :=
  n ≤ 1 || (roceRow a == roceRow (a + n - 1)
    && (decide (0xC000000000 ≤ a) || a / 0x1000000000 == (a + n - 1) / 0x1000000000))

/-- What R370 and R371 make of a request: served with an access, or refused with an event. ROCE_OP_BAD is
refused as an invalid request. -/
inductive RoceCheck where
  | serve | refuse (code : Nat)
deriving DecidableEq, Repr

/-- R370 for a READ or WRITE of n bytes at a hall address. -/
def rwCheck (s : State) (va n : Nat) (write : Bool) : RoceCheck :=
  let a := localOf va
  let here := (remoteOf s va).isNone
  let whole (n' : Nat) : Bool := n == n' && a % n' == 0
  if !oneRow a n then .refuse evAddrUnmapped
  else match roceRow a with
    | .memory => .serve
    | .sync => if whole 8 then .serve else .refuse evAddrUnmapped
    | .page => if whole 4 || whole 8 then .serve else .refuse evAddrUnmapped
    | .bollard =>
      if here && write then (if whole 8 then .serve else .refuse evAddrUnmapped) else .refuse evAddrProtected
    | .closed => .refuse evAddrProtected
    | .unmapped => .refuse evAddrUnmapped

/-- R370 and R371 for an atomic. -/
def atomicCheck (s : State) (va : Nat) (cas : Bool) : RoceCheck :=
  let here := (remoteOf s va).isNone
  match roceRow (localOf va) with
  | .memory => if here then .serve else .refuse evRoceOpBad
  | .sync => if here || !cas then .serve else .refuse evRoceOpBad
  | .unmapped => .refuse evAddrUnmapped
  | _ => .refuse evAddrProtected

/-- R369: the R_Key names an enabled region that holds the whole access and grants its kind. -/
def keyOk (s : State) (va n rkey right : Nat) : Bool :=
  let r : Region := aget {} (bits rkey 31 26) s.eth.regions
  decide (va < 2 ^ 52) && r.en && r.key == bits rkey 25 0 && decide (r.base ≤ va)
    && decide (va + n ≤ r.base + r.length) && bit r.rights right

/-! ## Answers of the responder (R368, R372 to R376) -/

/-- NAK kinds: 1 PSN sequence error, 2 invalid request, 3 remote access error, 4 remote operational error. -/
def nakOf (code : Nat) : Nat :=
  if code = evRoceOpBad then 2
  else if code = evSyncUnderflow ∨ code = evSyncOverflow ∨ code = evBollardFull then 4
  else 3

/-- An acknowledgement or NAK of context i. -/
def sendAck (i psn nak : Nat) (s : State) : State := transmit (prioA s) (qpn i) (.ack (s.qp i).remoteQpn psn nak) s

/-- The response packets of a READ, at the path MTU. -/
def sendRead (i psn : Nat) (data : List Byte) (s : State) : State :=
  let q := s.qp i
  let mtu := if q.mtu = 0 then 1024 else q.mtu
  let n := max 1 (cdiv data.length mtu)
  each (upto n) (fun j s =>
    transmit (prioA s) (qpn i) (.readResponse q.remoteQpn ((psn + j) % 2 ^ 24) ((data.drop (j * mtu)).take mtu)) s) s

/-- An outstanding read or atomic has ended (R375). -/
def uncount (i : Nat) (r : RoceReq) (s : State) : State :=
  if !r.counted then s
  else
    let s := s.setQp i { s.qp i with outstanding := (s.qp i).outstanding - 1 }
    { s with eth := { s.eth with outstanding := s.eth.outstanding - 1 } }

/-- A fatal NAK (R374): the context enters ERROR, its accepted requests are dropped. -/
def roceFail (i : Nat) (r : RoceReq) (code : Nat) (s : State) : State :=
  let s := each (r :: (s.qp i).waiting) (uncount i) s
  let s := s.setQp i { s.qp i with state := 3, serving := none, waiting := [], data := [], doneBytes := 0, msg := none }
  raiseEv .eth evRoceQpError (detUnit (qpn i) 0 code) (sendAck i r.psn (nakOf code) s)

/-- ROCE_OP_BAD (R374). -/
def roceBad (i : Nat) (r : RoceReq) (s : State) : State :=
  roceFail i r evRoceOpBad (raiseEv .eth evRoceOpBad (detUnit (qpn i) (bthOpcode r.op r.pkt) 0) s)

/-- The request is done; the next one of its queue pair is taken up by the caller. -/
def roceDone (i : Nat) (r : RoceReq) (s : State) : State :=
  uncount i r (s.setQp i { s.qp i with serving := none, data := [], doneBytes := 0 })

/-- Is this packet the last of its WRITE message? -/
def lastOf (p : RocePkt) : Bool := p.seg == .last || p.seg == .only

/-- A refusal of R370 on the ETH page. -/
def roceRefuse (i : Nat) (r : RoceReq) (code va : Nat) (s : State) : State :=
  roceFail i r code (raiseEv .eth code (detAddr (localOf va) (bits va 51 40) (.host (qpn i))) s)

/-! ## Performing a request -/

/-- Bytes of the piece that begins at a hall address: requests are split at 4 KiB blocks (R303). -/
def pieceLen (va left : Nat) : Nat := min left (4096 - va % 4096)

/-- Issues the next piece of a READ. -/
def readPiece (i : Nat) (r : RoceReq) (s : State) : State :=
  let q := s.qp i
  let va := r.pkt.va + q.doneBytes
  let n := pieceLen va (r.pkt.len - q.doneBytes)
  submitHall (.host (qpn i)) va (.load n false) (.roce i r.psn 1) true s

/-- Issues the next piece of the data of a WRITE packet, at the place its message has reached. -/
def writePiece (i : Nat) (r : RoceReq) (s : State) : State :=
  let q := s.qp i
  match q.msg with
  | none => s
  | some (va, _) =>
    let n := pieceLen va (r.pkt.data.length - q.doneBytes)
    let bs := (r.pkt.data.drop q.doneBytes).take n
    let acc := if roceRow (localOf va) = .bollard then Acc.launch (word (leNat bs)) else .store bs
    submitHall (.host (qpn i)) va acc (.roce i r.psn 0) true s

/-- A WRITE packet has been written whole: it is acknowledged if it ends its message or asks for it (R372). -/
def writeDone (i : Nat) (r : RoceReq) (s : State) : State :=
  let ack := lastOf r.pkt || r.pkt.ackReq
  let s := if lastOf r.pkt then s.setQp i { s.qp i with msg := none } else s
  let s := roceDone i r s
  if ack then sendAck i r.psn 0 s else s

/-- The data of a WRITE packet against its message (R373): nothing of it may lie beyond the DMA length, and
the last packet ends it. Registers, sync words and bollards take it in one packet. -/
def writeData (i : Nat) (r : RoceReq) (s : State) : State :=
  let n := r.pkt.data.length
  match (s.qp i).msg with
  | none => roceBad i r s
  | some (va, left) =>
    if left < n || (lastOf r.pkt && n != left) || (roceRow (localOf va) != .memory && n != left) then roceBad i r s
    else if n = 0 then writeDone i r s
    else writePiece i r s

/-- A WRITE packet: a First or Only packet is checked for its whole message (R369, R370). -/
def writeBegin (i : Nat) (r : RoceReq) (s : State) : State :=
  let p := r.pkt
  if p.seg = .first ∨ p.seg = .only then
    if !keyOk s p.va p.len p.rkey 1 then
      roceFail i r evRoceKeyBad (raiseEv .eth evRoceKeyBad (detUnit (qpn i) (bits p.rkey 31 26) 0) s)
    else match rwCheck s p.va p.len true with
      | .refuse code => roceRefuse i r code p.va s
      | .serve => writeData i r (s.setQp i { s.qp i with msg := some (p.va, p.len) })
  else writeData i r s

/-- A READ. -/
def readBegin (i : Nat) (r : RoceReq) (s : State) : State :=
  let p := r.pkt
  if !keyOk s p.va p.len p.rkey 0 then
    roceFail i r evRoceKeyBad (raiseEv .eth evRoceKeyBad (detUnit (qpn i) (bits p.rkey 31 26) 0) s)
  else match rwCheck s p.va p.len false with
    | .refuse code => roceRefuse i r code p.va s
    | .serve => if p.len = 0 then sendRead i r.psn [] (roceDone i r s) else readPiece i r s

/-- An atomic. -/
def atomicBegin (i : Nat) (r : RoceReq) (s : State) : State :=
  let p := r.pkt
  let cas := r.op == .cmpSwap
  if !keyOk s p.va 8 p.rkey 2 then
    roceFail i r evRoceKeyBad (raiseEv .eth evRoceKeyBad (detUnit (qpn i) (bits p.rkey 31 26) 0) s)
  else if p.va % 8 ≠ 0 then roceBad i r s
  else match atomicCheck s p.va cas with
    | .refuse code => if code = evRoceOpBad then roceBad i r s else roceRefuse i r code p.va s
    | .serve =>
      submitHall (.host (qpn i)) p.va (if cas then .cmpSwap p.compare p.swapAdd else .fetchAdd p.swapAdd)
        (.roce i r.psn 2) true s

/-- A duplicate of an atomic: its saved result, or an invalid request (R373). -/
def atomicAgain (i : Nat) (r : RoceReq) (s : State) : State :=
  match alookup r.psn (s.qp i).atomics with
  | some v => transmit (prioA s) (qpn i) (.atomicResponse (s.qp i).remoteQpn r.psn v) (roceDone i r s)
  | none => roceBad i r s

/-- A request is performed. -/
def roceBegin (i : Nat) (r : RoceReq) (s : State) : State :=
  let s := s.setQp i { s.qp i with serving := some r, data := [], doneBytes := 0 }
  match r.op, r.dup with
  | .write, true => sendAck i r.psn 0 (roceDone i r s)
  | .write, false => writeBegin i r s
  | .read, _ => if r.counted || r.dup then readBegin i r s else roceBad i r s
  | .fetchAdd, true => atomicAgain i r s
  | .cmpSwap, true => atomicAgain i r s
  | .fetchAdd, false => if r.counted then atomicBegin i r s else roceBad i r s
  | .cmpSwap, false => if r.counted then atomicBegin i r s else roceBad i r s
  | .imm, _ => roceBad i r s
  | .send, _ => roceBad i r s

/-- The next accepted request of a queue pair begins, if none is being performed (R372). -/
def roceNext (i : Nat) (s : State) : State :=
  let q := s.qp i
  match q.serving, q.waiting with
  | none, r :: rest => roceBegin i r (s.setQp i { q with waiting := rest })
  | _, _ => s

/-- A piece of the request being performed is answered. -/
def roceAnswered (i psn : Nat) (a : Resp) (s : State) : State :=
  let q := s.qp i
  match q.serving with
  | none => s
  | some r =>
    if r.psn ≠ psn then s
    else match a with
      | .err code => roceFail i r code s
      | .ok bs => match r.op with
        | .read =>
          let q := { q with data := q.data ++ bs, doneBytes := q.doneBytes + bs.length }
          if q.doneBytes < r.pkt.len then readPiece i r (s.setQp i q)
          else sendRead i r.psn (q.data.take r.pkt.len) (roceDone i r s)
        | .write => match q.msg with
          | none => s
          | some (va, left) =>
            let n := pieceLen va (r.pkt.data.length - q.doneBytes)
            let q := { q with doneBytes := q.doneBytes + n, msg := some (va + n, left - n) }
            if q.doneBytes < r.pkt.data.length then writePiece i r (s.setQp i q)
            else writeDone i r (s.setQp i q)
        | _ =>
          let v := word (leNat (bs.take 8))
          let q := { q with atomics := ((psn, v) :: q.atomics).take 32 }
          transmit (prioA s) (qpn i) (.atomicResponse q.remoteQpn psn v) (roceDone i r (s.setQp i q))

/-- A request is queued behind the earlier ones of its queue pair. -/
def roceQueue (i : Nat) (r : RoceReq) (s : State) : State :=
  roceNext i (s.setQp i { s.qp i with waiting := (s.qp i).waiting ++ [r] })

/-- Does the request count as outstanding? -/
def counts (op : RoceOp) : Bool := op == .read || op == .fetchAdd || op == .cmpSwap

/-- An accepted packet against the PSN rules (R373). (PRESUMED, log entry 36) -/
def rocePsn (op : RoceOp) (i : Nat) (p : RocePkt) (s : State) : State :=
  let q := s.qp i
  let d := (p.psn + 2 ^ 24 - q.psn) % 2 ^ 24
  let psn := p.psn % 2 ^ 24
  if d = 0 then
    let mtu := if q.mtu = 0 then 1024 else q.mtu
    let step := if op = .read then max 1 (cdiv p.len mtu) else 1
    let counted := counts op && decide (q.outstanding < q.maxOut)
    let q := { q with psn := (psn + step) % 2 ^ 24, nakSent := false
                      outstanding := q.outstanding + b2n counted }
    let s := s.setQp i q
    let s := { s with eth := { s.eth with outstanding := s.eth.outstanding + b2n counted } }
    roceQueue i ⟨op, psn, false, counted, p⟩ s
  else if d < 2 ^ 23 then
    if q.nakSent then s else sendAck i q.psn 1 (s.setQp i { q with nakSent := true })
  else roceQueue i ⟨op, psn, true, false, p⟩ s

/-- CNP for a packet marked CE, at most one in 5,000 ticks (R376). -/
def congestion (i : Nat) (f : Frame) (s : State) : State :=
  let q := s.qp i
  let free := match q.lastCnp with
    | none => true
    | some t => s.past t 5000
  if f.ce && free then transmit (prioA s) (qpn i) (.cnp q.remoteQpn) (s.setQp i { q with lastCnp := some s.now }) else s

/-- The context that a RoCE packet names and may use (R380): none where the packet is dropped; `counted` tells
whether the drop is counted. -/
def roceContext (s : State) (f : Frame) (p : RocePkt) : Option Nat × Bool :=
  if !ipTakes s f || !p.rc || p.qpn < 2 || 514 ≤ p.qpn then (none, true)
  else
    let q := s.qp (p.qpn - 2)
    if q.state = 0 || q.v6 != f.v6 || q.remoteIp != f.srcIp then (none, true)
    else if q.state = 3 then (none, false)
    else (some (p.qpn - 2), true)

/-- A RoCE packet at the head of the PRIO_A buffer. -/
def roceTake (op : RoceOp) (f : Frame) (p : RocePkt) (s : State) : State :=
  match roceContext s f p with
  | (none, counted) => if counted then dropFrame s else s
  | (some i, _) => rocePsn op i p (congestion i f s)

/-- Must the packet wait in the buffer: behind others, or for one of 4,096 entries (R375)? -/
def roceBlocked (s : State) (op : RoceOp) : Bool := counts op && decide (4096 ≤ s.eth.outstanding)

/-- Bytes in the PRIO_A ingress buffer. -/
def ingressBytes (s : State) : Nat := s.eth.ingress.foldl (fun n x => n + x.2.1.len) 0

/-- A RoCE packet arrives. A packet that must wait stays in the buffer; with more than 768 KiB there the device
pauses the priority (R366). -/
def roceArrive (op : RoceOp) (f : Frame) (p : RocePkt) (s : State) : State :=
  if s.eth.ingress.isEmpty && !roceBlocked s op then roceTake op f p s
  else if 0x100000 < ingressBytes s + f.len then s
  else
    let s := { s with eth := { s.eth with ingress := s.eth.ingress ++ [(op, f, p)] } }
    if 0xC0000 < ingressBytes s then s.emit (.pfc (prioA s)) else s

/-- Packets leave the buffer while the head need not wait. -/
def roceDrain : Nat → State → State
  | 0, s => s
  | fuel + 1, s => match s.eth.ingress with
    | [] => s
    | (op, f, p) :: rest =>
      if roceBlocked s op then s
      else roceDrain fuel (roceTake op f p { s with eth := { s.eth with ingress := rest } })

/-! ## DCQCN (R376) -/

/-- The line rate in kb/s. -/
def lineRate : Nat := 800000000

/-- A received CNP cuts the rate of its queue pair's read responses. -/
def dcqcnCut (i : Nat) (s : State) : State :=
  let q := s.qp i
  let g := s.field .roce 0x100 7 0
  let least := s.field .roce 0x100 63 48 * 1000000
  s.setQp i { q with
    rt := q.rc, rc := max least (q.rc - q.rc * q.alpha / 131072)
    alpha := q.alpha - q.alpha / 2 ^ g + 65536 / 2 ^ g
    steps := 0, byteSteps := 0, cnpSeen := true, timerAt := s.now, bytes := 0 }

/-- A rate increase: five fast-recovery steps, then additive, then hyper steps. (PRESUMED, log entry 35) -/
def dcqcnRaise (s : State) (q : Qp) : Qp :=
  let rt := if max q.steps q.byteSteps ≤ 5 then q.rt
    else if min q.steps q.byteSteps ≤ 5 then q.rt + s.field .roce 0x100 47 40 * 1000000
    else q.rt + s.field .roce 0x100 39 32 * 1000000
  let rt := min lineRate rt
  { q with rt := rt, rc := min lineRate ((rt + q.rc) / 2) }

/-- Has the α and increase timer of a context run out? -/
def dcqcnTimerDue (s : State) (i : Nat) : Bool :=
  ethReady s && (s.qp i).state != 0 && s.past (s.qp i).timerAt (s.field .roce 0x100 31 16)

/-- The α and increase timer. -/
def dcqcnTick (i : Nat) (s : State) : State :=
  let q := s.qp i
  let alpha := if q.cnpSeen then q.alpha else q.alpha - q.alpha / 2 ^ s.field .roce 0x100 7 0
  s.setQp i (dcqcnRaise s { q with alpha := alpha, cnpSeen := false, timerAt := s.now, steps := q.steps + 1 })

/-- Has the byte counter of a context been reached? -/
def dcqcnBytesDue (s : State) (i : Nat) : Bool :=
  let n := s.field .roce 0x100 15 8 * 0x100000
  ethReady s && n != 0 && decide (n ≤ (s.qp i).bytes)

/-- The byte counter. -/
def dcqcnBytes (i : Nat) (s : State) : State :=
  let q := s.qp i
  s.setQp i (dcqcnRaise s { q with
    bytes := q.bytes - s.field .roce 0x100 15 8 * 0x100000, byteSteps := q.byteSteps + 1 })

/-! ## TMP messages (R379 to R382) -/

/-- Byte i of a message, n bytes wide; what a short message lacks reads as zero. -/
def msgField (m : List Byte) (i n : Nat) : Nat := leNat (fit 0 n ((m.drop i).take n))

/-- Defined request codes. -/
def tmpCodes : List Nat := [1, 2, 3, 4, 5, 6, 0x10, 0x11, 0x12, 0x13, 0x20, 0x21]

/-- Request codes that SAFE serves (R379). -/
def tmpSafe : List Nat := [0x10, 0x11, 0x12, 0x13, 0x21]

/-- Does the header of a message stand up (R381)? -/
def tmpHeaderOk (s : State) (m : List Byte) : Bool :=
  let op := msgField m 3 1
  decide (16 ≤ m.length) && msgField m 0 2 == 0x4D54 && msgField m 2 1 == 1 && msgField m 10 2 == 0
    && msgField m 12 4 == 0 && msgField m 8 2 == m.length - 16 && decide (m.length ≤ 16 + 8192)
    && tmpCodes.contains op && (s.sec.state != 6 || tmpSafe.contains op)

/-- Is the requester on the allowlist, where it is enforced (R382)? SAFE runs with it off (R442). -/
def tmpAllowed (s : State) (f : Frame) : Bool :=
  let c := s.reg .eth 0x120
  let entry (i : Nat) : Bool :=
    let w := fun (j : Nat) => s.reg .eth (0x200 + 32 * i + 8 * j)
    bit c i && bits (w 0) 47 0 == f.srcMac && bit (w 0) 48 == f.v6
      && (if f.v6 then w 1 + 2 ^ 64 * w 2 == f.srcIp else bits (w 1) 31 0 == f.srcIp)
  s.sec.state == 6 || !bit c 16 || (upto 16).any entry

/-- The denial window of now, numbered from 1 (R382). (DEDUCED, log entry 59) -/
def denialWindow (s : State) : Nat := s.now / 100000 + 1

/-- A denied request is counted; the first of a window raises TMP_DENIED. -/
def tmpDeny (s : State) : State :=
  let first := s.eth.deniedWindow != denialWindow s
  let s := { s with eth := { s.eth with denied := min 0xFFFF (s.eth.denied + 1), deniedWindow := denialWindow s } }
  if first then raiseEv .eth evTmpDenied 0 s else s

/-- A response leaves and is kept among the last 64 (R382). -/
def tmpRespond (ip port seq : Nat) (r : TmpResp) (s : State) : State :=
  transmit (prioB s) 0 (.tmp ip port r)
    { s with eth := { s.eth with kept := ((ip, port, seq, r) :: s.eth.kept).take 64 } }

/-- The kept response to a request (R382). -/
def tmpKept (s : State) (ip port seq : Nat) : Option TmpResp :=
  (s.eth.kept.find? fun k => k.1 == ip && k.2.1 == port && k.2.2.1 == seq).map (·.2.2.2)

/-- Is the request being worked on? -/
def tmpBusy (s : State) (ip port seq : Nat) : Bool :=
  s.eth.runs.any (fun r => r.ip == ip && r.port == port && r.seq == seq)
    || (match s.sec.quote with
      | some (a, b, c, _, _) => a == ip && b == port && c == seq
      | none => false)
    || s.sec.attests.any fun x => x.1 == ip && x.2.1 == port && x.2.2.1 == seq

/-- TMP_FORMAT (R381). -/
def tmpFormat (f : Frame) (m : List Byte) (s : State) : State :=
  let op := msgField m 3 1
  tmpRespond f.srcIp f.srcPort (msgField m 4 4) ⟨(op + 0x80) % 256, msgField m 4 4, evTmpFormat, 0, .bytes []⟩
    (raiseEv .eth evTmpFormat (detUnit op 0 0) s)

/-- The response of a request that has been performed. -/
def tmpOk (f : Frame) (m : List Byte) (p : TmpPayload) (s : State) : State :=
  tmpRespond f.srcIp f.srcPort (msgField m 4 4) ⟨(msgField m 3 1 + 0x80) % 256, msgField m 4 4, 0, 0, p⟩ s

/-- The response of a request that has failed. -/
def tmpErr (f : Frame) (m : List Byte) (code index : Nat) (s : State) : State :=
  tmpRespond f.srcIp f.srcPort (msgField m 4 4)
    ⟨(msgField m 3 1 + 0x80) % 256, msgField m 4 4, code, index, .bytes []⟩ s

/-- A TMP datagram with request code `code` arrives: it is dropped, denied, answered from the kept responses,
or malformed, or it is performed by f. `wellFormed` judges its payload. A datagram with another defined
code is another row's. -/
def tmpArrive (code : Nat) (f : Frame) (m : List Byte) (wellFormed : Bool) (perform : State → State)
    (s : State) : State :=
  let op := msgField m 3 1
  let seq := msgField m 4 4
  if op ≠ code && tmpCodes.contains op then s
  else if !ipTakes s f then dropFrame s
  else if !tmpAllowed s f then tmpDeny s
  else match tmpKept s f.srcIp f.srcPort seq with
    | some r => transmit (prioB s) 0 (.tmp f.srcIp f.srcPort r) s
    | none =>
      if tmpBusy s f.srcIp f.srcPort seq then s
      else if !tmpHeaderOk s m || !wellFormed then tmpFormat f m s
      else perform s

/-! ## REG_READ and REG_WRITE (R379) -/

/-- The entries of a register message: address, width and value. -/
def tmpEntries (m : List Byte) (write : Bool) : List (Nat × Nat × Nat) :=
  let n := if write then 16 else 8
  (upto ((m.length - 16) / n)).map fun i =>
    let w := msgField m (16 + n * i) 8
    (bits w 39 0, bits w 47 40, if write then msgField m (24 + n * i) 8 else 0)

/-- Is a register message well formed: 1 to 64 whole entries, aligned, 4 or 8 B wide, reserved bits zero? -/
def tmpEntriesOk (m : List Byte) (write : Bool) : Bool :=
  let n := if write then 16 else 8
  let k := (m.length - 16) / n
  (m.length - 16) % n == 0 && decide (1 ≤ k) && decide (k ≤ 64)
    && (upto k).all (fun i => bits (msgField m (16 + n * i) 8) 63 48 == 0)
    && (tmpEntries m write).all fun e => (e.2.1 == 4 || e.2.1 == 8) && e.1 % e.2.1 == 0

/-- Issues the next entry of a register message. -/
def tmpEntry (r : TmpRun) (s : State) : State :=
  let (a, w, v) := nth (0, 0, 0) r.entries r.index
  let q : Req := ⟨.tmp r.ip r.port, a, .tmpEntry r.id, 0xFFF⟩
  let named := match homeOf s a with
    | .ctrl _ _ => true
    | .chip _ _ => true
    | _ => false
  if !named then answerOpt q (refuse evAddrUnmapped q a s)
  else submit q (if r.write then .store (leBytes w v) else .load w false) s

/-- A register message begins. -/
def tmpRegs (f : Frame) (m : List Byte) (write : Bool) (s : State) : State :=
  let r : TmpRun := ⟨s.eth.nextRun, f.srcIp, f.srcPort, msgField m 4 4, write, tmpEntries m write, 0, []⟩
  tmpEntry r { s with eth := { s.eth with runs := s.eth.runs ++ [r], nextRun := s.eth.nextRun + 1 } }

/-- An entry is answered: the next one, or the response. The first that fails stops the message. -/
def tmpAnswered (id : Nat) (a : Resp) (s : State) : State :=
  match s.eth.runs.find? fun r => r.id == id with
  | none => s
  | some r =>
    let gone : State := { s with eth := { s.eth with runs := s.eth.runs.filter fun x => x.id != id } }
    let op := if r.write then 0x82 else 0x81
    match a with
    | .err code => tmpRespond r.ip r.port r.seq ⟨op, r.seq, code, r.index, .bytes r.out⟩ gone
    | .ok bs =>
      let r := { r with index := r.index + 1, out := if r.write then [] else r.out ++ fit 0 8 bs }
      if r.index < r.entries.length then
        tmpEntry r { s with eth := { s.eth with runs := s.eth.runs.map fun x => if x.id = id then r else x } }
      else tmpRespond r.ip r.port r.seq ⟨op, r.seq, 0, 0, .bytes r.out⟩ gone

/-! ## Contexts, regions, event destination (R379, R380, R383) -/

/-- Are the fields of a queue-pair context legal? -/
def qpArgsOk (x : QpArgs) : Bool :=
  decide (x.index < 512) && decide (x.state ≤ 3) && (x.mtu == 1024 || x.mtu == 2048 || x.mtu == 4096)
    && decide (1 ≤ x.maxOut) && decide (x.maxOut ≤ 32) && decide (x.psn < 2 ^ 24) && decide (x.remoteQpn < 2 ^ 24)
    && decide (x.dscp < 64) && decide (x.pcp < 8)

/-- QP_SET: the context takes its fields; RESET clears PSNs, atomic results and DCQCN state. -/
def setContext (x : QpArgs) (s : State) : State :=
  let q := s.qp x.index
  let fields (q : Qp) : Qp := { q with
    state := x.state, remoteQpn := x.remoteQpn, v6 := x.v6, remoteIp := x.remoteIp, mac := x.mac, mtu := x.mtu
    dscp := x.dscp, pcp := x.pcp, maxOut := x.maxOut }
  if x.state = 0 then
    let s := each (q.serving.toList ++ q.waiting) (uncount x.index) s
    s.setQp x.index (fields { timerAt := s.now })
  else s.setQp x.index { fields q with psn := x.psn, nakSent := false }

/-- The fields of a context as QP_QUERY returns them. -/
def contextArgs (i : Nat) (q : Qp) : QpArgs :=
  ⟨i, q.state, q.remoteQpn, q.psn, q.v6, q.remoteIp, q.mac, q.mtu, q.dscp, q.pcp, q.maxOut⟩

/-- Are the fields of a region legal? -/
def regionArgsOk (x : RegionArgs) : Bool :=
  decide (x.index < 64) && decide (x.base < 2 ^ 52) && decide (x.key < 2 ^ 26) && decide (x.rights < 8)

/-- REGION_SET. -/
def setRegion (x : RegionArgs) (s : State) : State :=
  { s with eth := { s.eth with regions := aset x.index ⟨x.base, x.length, x.key, x.rights, x.en⟩ s.eth.regions } }

/-- EVENT_DEST. -/
def setDest (x : DestArgs) (s : State) : State :=
  { s with eth := { s.eth with destV6 := x.v6, destIp := x.ip, destPort := x.port, destMac := x.mac, destEn := x.en } }

/-! ## Firmware requests (R446 to R449) -/

/-- A firmware request is refused: FW_UPDATE_BAD with a cause (R446, R447). -/
def fwReject (f : Frame) (m : List Byte) (cause : Nat) (s : State) : State :=
  tmpErr f m evFwUpdateBad cause (fwRefuse (msgField m 3 1) cause s)

/-- Does a slot hold an image that verified at the last start or the last commit? -/
def slotVerified (s : State) (slot : Nat) : Bool :=
  !s.sec.erased.contains slot && match slotResult s slot with
    | some (cause, _, _) => cause == 0
    | none => false

/-- FW_BEGIN: the slot's erasure begins. (DEDUCED, log entry 39) -/
def fwBeginDo (f : Frame) (m : List Byte) (s : State) : State :=
  let slot := msgField m 16 1
  let idle := s.sec.fwState == 0 || s.sec.fwState == 4 || s.sec.fwState == 5
  if !idle || !(s.sec.state == 6 || slotVerified s (1 - slot)) then fwReject f m 10 s
  else tmpOk f m (.bytes []) { s with sec := { s.sec with
    fwState := 1, fwSlot := slot, fwSize := msgField m 17 4, fwBytes := 0, fwDone := []
    erased := if s.sec.erased.contains slot then s.sec.erased else s.sec.erased ++ [slot] } }

/-- Is the payload of FW_BEGIN well formed: 5 B, a slot, and an image that fits it? -/
def fwBeginOk (m : List Byte) : Bool :=
  m.length == 21 && decide (msgField m 16 1 ≤ 1) && decide (msgField m 17 4 ≤ 0x1800000)

/-- The erasure ends: the slot's bytes are erased; the update receives. -/
def eraseDone (s : State) : State :=
  let b := slotBase s.sec.fwSlot
  { s with flash := s.flash.clear b (b + 0x1800000), sec := { s.sec with fwState := 2 } }

/-- Has byte i of the slot been programmed in this update? -/
def fwProgrammed (s : State) (i : Nat) : Bool := s.sec.fwDone.any fun r => decide (r.1 ≤ i) && decide (i < r.1 + r.2)

/-- FW_CHUNK. -/
def fwChunkDo (f : Frame) (m : List Byte) (s : State) : State :=
  let off := msgField m 16 4
  let data := m.drop 24
  let base := slotBase s.sec.fwSlot + off
  let old := s.flash.read base data.length
  let marks := (upto data.length).map fun j => fwProgrammed s (off + j)
  let clash := ((marks.zip (old.zip data)).any fun x => x.1 && x.2.1 != x.2.2)
  if s.sec.fwState ≠ 2 || s.sec.fwSize < off + data.length || clash then fwReject f m 11 s
  else
    let n := (marks.filter fun b => !b).length
    tmpOk f m (.bytes []) { s with
      flash := s.flash.write base data
      sec := { s.sec with fwBytes := s.sec.fwBytes + n, fwDone := (off, data.length) :: s.sec.fwDone } }

/-- Is the payload of FW_CHUNK well formed? -/
def fwChunkOk (m : List Byte) : Bool :=
  decide (32 ≤ m.length) && decide (m.length ≤ 24 + 8184) && msgField m 16 4 % 8 == 0 && msgField m 20 4 == 0

/-- FW_COMMIT: the slot is verified; a success may burn the SVN and schedule the activation. -/
def fwCommitDo (f : Frame) (m : List Byte) (s : State) : State :=
  let slot := msgField m 16 1
  let flags := msgField m 17 1
  let cause := checkImage s.flash slot false s.sec.svn s.sec.keyHash
  let svn := hdrSvn (s.flash.read (slotBase slot) 256)
  if cause ≠ 0 then
    let s := noteSlot slot cause s
    fwReject f m cause { s with sec := { s.sec with fwState := 5, fwSlot := slot } }
  else if bit flags 1 && !slotAllows s (1 - slot) svn then fwReject f m 12 s
  else
    let s := noteSlot slot 0 s
    let s := { s with sec := { s.sec with
      fwState := 4, fwSlot := slot
      svn := if bit flags 1 then max s.sec.svn svn else s.sec.svn
      activateAt := if bit flags 0 then some (s.now + 1000) else s.sec.activateAt } }
    tmpOk f m (.bytes []) s

/-- Is the payload of FW_COMMIT well formed? -/
def fwCommitOk (m : List Byte) : Bool :=
  m.length == 18 && decide (msgField m 16 1 ≤ 1) && decide (msgField m 17 1 < 4)

/-- Cause, version and SVN of a slot's last check; cause 1 where it was not checked. -/
def slotReport (s : State) (slot : Nat) : Nat × Nat × Nat := (slotResult s slot).getD (1, 0, 0)

/-- FW_STATUS. -/
def fwStatusDo (f : Frame) (m : List Byte) (s : State) : State :=
  tmpOk f m (.fwStatus (secValue s 0x138) (slotReport s 0) (slotReport s 1)) s

/-! ## Attestation and identity (R379, R450, R451) -/

/-- ATTEST: a quote begins, or waits for the one being built. -/
def attestDo (f : Frame) (m : List Byte) (s : State) : State :=
  let seq := msgField m 4 4
  let nonce := m.drop 16
  if !s.sec.idOk then tmpErr f m evSecIdentBad 0 s
  else if s.sec.quote.isNone then
    { s with sec := { s.sec with quote := some (f.srcIp, f.srcPort, seq, nonce, s.now) } }
  else { s with sec := { s.sec with attests := s.sec.attests ++ [(f.srcIp, f.srcPort, seq, nonce)] } }

/-- The applied CFG_CRC_REF of every page: core control pages, then chip pages by address (R451). -/
def measuredRefs (s : State) : List Byte :=
  (((upto 10240).map PageId.core) ++ chipPages).flatMap fun p => leBytes 4 (s.reg p 0x020)

/-- Bytes 0 to 143 of a quote. -/
def quoteBytes (s : State) (nonce : List Byte) (t0 : Nat) : List Byte :=
  let h := s.sec.runHeader
  leBytes 2 0x5141 ++ leBytes 1 1 ++ leBytes 1 s.sec.state ++ leBytes 2 s.deviceId ++ leBytes 2 0
    ++ leBytes 8 s.sec.serial ++ leBytes 8 t0 ++ leBytes 8 s.now ++ nonce
    ++ sm3 (h ++ s.wmem.read (hdrLoad h) (hdrLength h)) ++ leBytes 8 s.sec.fwVer ++ leBytes 1 s.sec.svn
    ++ leBytes 3 0 ++ sm3 (measuredRefs s) ++ leBytes 4 10303

/-- The quote is complete: it is returned, with a signature whose value is free (its nonce is random), and a
waiting ATTEST begins. (DESIGN CHOICE, log entry 41) -/
def quoteDone (s : State) : State :=
  match s.sec.quote with
  | none => s
  | some (ip, port, seq, nonce, t0) =>
    let body := quoteBytes s nonce t0
    let (sig, s) := (upto 8).foldl (fun (acc : List Byte × State) _ =>
      let (v, s) := acc.2.draw 64
      (acc.1 ++ leBytes 8 v, s)) ([], s)
    let next := match s.sec.attests with
      | [] => none
      | (a, b, c, n) :: _ => some (a, b, c, n, s.now)
    tmpRespond ip port seq ⟨0xA0, seq, 0, 0, .bytes (body ++ sig)⟩
      { s with sec := { s.sec with quote := next, attests := s.sec.attests.drop 1 } }

/-- IDENTITY. -/
def identityDo (f : Frame) (m : List Byte) (s : State) : State :=
  tmpOk f m (.identity 0x0D10 s.sec.baseStep s.sec.metalStep s.sec.fwVer s.deviceId
    (if s.sec.idOk then certificate s.flash else [])) s

/-! ## The PRIO_B buffer (R366) -/

/-- A TMP datagram at the head of the PRIO_B buffer: its request code, the form of its payload, what it does. -/
def tmpTake (r : TmpReq) (f : Frame) (m : List Byte) (s : State) : State :=
  match r with
  | .regRead => tmpArrive 0x01 f m (tmpEntriesOk m false) (tmpRegs f m false) s
  | .regWrite => tmpArrive 0x02 f m (tmpEntriesOk m true) (tmpRegs f m true) s
  | .qpSet x => tmpArrive 0x03 f m (qpArgsOk x) (fun s => tmpOk f m (.bytes []) (setContext x s)) s
  | .qpQuery index => tmpArrive 0x04 f m (decide (index < 512))
      (fun s => tmpOk f m (.context (contextArgs index (s.qp index))) s) s
  | .regionSet x => tmpArrive 0x05 f m (regionArgsOk x) (fun s => tmpOk f m (.bytes []) (setRegion x s)) s
  | .eventDest x => tmpArrive 0x06 f m (decide (x.port < 2 ^ 16) && decide (x.mac < 2 ^ 48))
      (fun s => tmpOk f m (.bytes []) (setDest x s)) s
  | .fwBegin => tmpArrive 0x10 f m (fwBeginOk m) (fwBeginDo f m) s
  | .fwChunk => tmpArrive 0x11 f m (fwChunkOk m) (fwChunkDo f m) s
  | .fwCommit => tmpArrive 0x12 f m (fwCommitOk m) (fwCommitDo f m) s
  | .fwStatus => tmpArrive 0x13 f m (m.length == 16) (fwStatusDo f m) s
  | .attest => tmpArrive 0x20 f m (m.length == 48) (attestDo f m) s
  | .identity => tmpArrive 0x21 f m (m.length == 16) (identityDo f m) s

/-- Must TMP requests wait: no answer can leave while their priority is paused? (DESIGN CHOICE, log entry 75) -/
def tmpBlocked (s : State) : Bool := s.eth.paused.contains (prioB s)

/-- Bytes in the PRIO_B ingress buffer. -/
def ingressBytesB (s : State) : Nat := s.eth.ingressB.foldl (fun n x => n + x.2.1.len) 0

/-- A TMP datagram arrives. One that must wait stays in the buffer of 1 MiB; with more than 768 KiB there the device
pauses the priority (R366). -/
def tmpRow (r : TmpReq) (f : Frame) (m : List Byte) (s : State) : State :=
  if s.eth.ingressB.isEmpty && !tmpBlocked s then tmpTake r f m s
  else if 0x100000 < ingressBytesB s + f.len then s
  else
    let s := { s with eth := { s.eth with ingressB := s.eth.ingressB ++ [(r, f, m)] } }
    if 0xC0000 < ingressBytesB s then s.emit (.pfc (prioB s)) else s

/-- Datagrams leave the buffer while they need not wait. -/
def tmpDrain : Nat → State → State
  | 0, s => s
  | fuel + 1, s => match s.eth.ingressB with
    | [] => s
    | (r, f, m) :: rest =>
      if tmpBlocked s then s else tmpDrain fuel (tmpTake r f m { s with eth := { s.eth with ingressB := rest } })

/-! ## A dike tick at the port -/

/-- The link comes up by way of negotiation and training (R363, R385): it is negotiating as soon as the port is enabled,
and when training begins is free. (DESIGN CHOICE, log entry 76) -/
def linkTick (s : State) : State :=
  if !(s.live || s.sec.state == 6) || !bit (ethCfg s) 0 || decide (2 ≤ s.eth.link) then s
  else if s.eth.link = 0 then { s with eth := { s.eth with link := 1 } }
  else
    let (v, s) := s.draw 1
    { s with eth := { s.eth with link := 1 + v } }

end Sys2Proof.Machine
end

