-- ==== Sys2Proof/Machine/Retire.lean ====
section
/-! DEFINITION. What ends with a stack that is retired in service (R279): the strands with an endpoint in it and
the engine records that wait on a sync word in it. -/

namespace Sys2Proof.Machine

/-- Is a hall address in one of these stacks of this device? -/
def inStacks (ks : List Nat) (s : State) (hall : Nat) : Bool :=
  (remoteOf s hall).isNone && decide (localOf hall < 0xC000000000) && ks.contains (localOf hall / 0x1000000000)

/-- The place in one of these stacks that an occupied context reads or writes next. -/
def endpointIn (ks : List Nat) (s : State) (k : Ctx) : Option Nat :=
  let r := k.srec
  if k.state = 0 then none
  else if inStacks ks s r.src then some ((srcPlace s r k.pos 0).hall s)
  else if inStacks ks s r.dst then some ((dstPlace s r k.pos 0).hall s)
  else none

/-- Has the wait of a record ended with an error of its read? -/
def WaitState.isFailed : WaitState → Bool
  | .failed _ => true
  | _ => false

/-- A context with an endpoint in one of these stacks halts on an unmapped access; one whose wait has failed ends
its wait. -/
def endStrand (ks : List Nat) (c n : Nat) (s : State) : State :=
  let k := s.ctx c n
  let r := k.srec
  match endpointIn ks s k with
  | some a => if k.state = 4 then s else haltAddr c n k.pos evAddrUnmapped a a s
  | none =>
    if k.state = 1 && r.waitEn && (waitState c (ctxWaiter n) (k.who c n) r.waitAddr r.waitValue s).isFailed then
      startStrand c n s
    else if k.state = 3 then
      match engineWord (k.who c n) r.relAddr s with
      | some (.error _) => observeRelease c n s
      | _ => s
    else s

/-- The record that an executor has staged ends where its wait has failed. -/
def endArrays (c : Nat) (side : Bool) (s : State) : State :=
  match mxStaged s c side with
  | some w => if (mxWait s c w).isFailed && mxStartDue s c side then mxStart c side s else s
  | none => s

/-- The same for the vector engine. -/
def endVector (c : Nat) (s : State) : State :=
  match (s.core c).vec.staged with
  | some w => if (vxWait s c (VRec.of w)).isFailed && vxStartDue s c then vxStart c s else s
  | none => s

/-- What of core c waits on these stacks ends. -/
def endCore (ks : List Nat) (c : Nat) (s : State) : State :=
  each (upto 8) (endStrand ks c) (endVector c (endArrays c true (endArrays c false s)))

/-- Stacks ks have been retired. -/
def endRetired (ks : List Nat) (s : State) : State :=
  if ks.isEmpty then s else each s.cores (fun r s => endCore ks r.1 s) s

end Sys2Proof.Machine
end

