-- ==== Sys2Proof/Machine/RvDecode.lean ====
section
/-! DEFINITION. The steward's instruction formats: RV64IMAC with Zicsr, Zifencei, Zawrs, Zba and Zbb (R168),
decoded from the bits of an instruction. The encodings are those of the RISC-V standards that R168 names
(PRESUMED, log entry 20). -/

namespace Sys2Proof.Machine

/-- Two-operand and one-operand arithmetic. -/
inductive Alu where
  | add | sub | sll | slt | sltu | xor | srl | sra | or | and
  | addw | subw | sllw | srlw | sraw
  | mul | mulh | mulhsu | mulhu | div | divu | rem | remu
  | mulw | divw | divuw | remw | remuw
  | adduw | sh1add | sh2add | sh3add | sh1adduw | sh2adduw | sh3adduw | slliuw
  | andn | orn | xnor | max | maxu | min | minu | rol | rolw | ror | rorw
  | clz | ctz | cpop | clzw | ctzw | cpopw | sextb | sexth | zexth | orcb | rev8
deriving DecidableEq, Repr

/-- Branch conditions. -/
inductive Cond where
  | eq | ne | lt | ge | ltu | geu
deriving DecidableEq, Repr

/-- Read-modify-write operations of the A extension, by their funct5. -/
inductive RvAmo where
  | swap | add | xor | and | or | min | max | minu | maxu
deriving DecidableEq, Repr

/-- An instruction; immediates are sign-extended 64-bit values, sizes are in bytes. -/
inductive Rv where
  | lui (rd : Nat) (v : BitVec 64)
  | auipc (rd : Nat) (v : BitVec 64)
  | jal (rd : Nat) (off : BitVec 64)
  | jalr (rd rs : Nat) (off : BitVec 64)
  | branch (k : Cond) (a b : Nat) (off : BitVec 64)
  | load (rd rs : Nat) (off : BitVec 64) (size : Nat) (signed : Bool)
  | store (rs src : Nat) (off : BitVec 64) (size : Nat)
  | imm (op : Alu) (rd rs : Nat) (v : BitVec 64)
  | reg (op : Alu) (rd a b : Nat)
  | fence
  | fenceI
  | ecall
  | ebreak
  | mret
  | wfi
  | wrs (sto : Bool)
  | csr (op rd csr : Nat) (imm : Bool) (src : Nat)
  | lr (rd rs size : Nat)
  | sc (rd rs src size : Nat)
  | amo (op : RvAmo) (rd rs src size : Nat)
  | illegal
deriving DecidableEq, Repr

/-- The sign-extended value of an n-bit field. -/
def simm (v n : Nat) : BitVec 64 := BitVec.ofInt 64 (sext v n)

/-! ## 32-bit formats -/

/-- I immediate. -/
def immI (w : Nat) : BitVec 64 := simm (bits w 31 20) 12
/-- S immediate. -/
def immS (w : Nat) : BitVec 64 := simm (bits w 31 25 * 32 + bits w 11 7) 12
/-- B immediate. -/
def immB (w : Nat) : BitVec 64 :=
  simm (bits w 31 31 * 4096 + bits w 7 7 * 2048 + bits w 30 25 * 32 + bits w 11 8 * 2) 13
/-- U immediate. -/
def immU (w : Nat) : BitVec 64 := simm (bits w 31 12 * 4096) 32
/-- J immediate. -/
def immJ (w : Nat) : BitVec 64 :=
  simm (bits w 31 31 * 2 ^ 20 + bits w 19 12 * 4096 + bits w 20 20 * 2048 + bits w 30 21 * 2) 21

/-- LOAD: size and sign by funct3. -/
def decLoad (f3 : Nat) : Option (Nat × Bool) :=
  if f3 = 0 then some (1, true) else if f3 = 1 then some (2, true) else if f3 = 2 then some (4, true)
  else if f3 = 3 then some (8, true) else if f3 = 4 then some (1, false) else if f3 = 5 then some (2, false)
  else if f3 = 6 then some (4, false) else none

/-- BRANCH conditions by funct3. -/
def decCond (f3 : Nat) : Option Cond :=
  if f3 = 0 then some .eq else if f3 = 1 then some .ne else if f3 = 4 then some .lt
  else if f3 = 5 then some .ge else if f3 = 6 then some .ltu else if f3 = 7 then some .geu else none

/-- OP-IMM. -/
def decOpImm (w : Nat) : Rv :=
  let f3 := bits w 14 12
  let rd := bits w 11 7
  let rs := bits w 19 15
  let f6 := bits w 31 26
  let f12 := bits w 31 20
  let sh := BitVec.ofNat 64 (bits w 25 20)
  if f3 = 0 then .imm .add rd rs (immI w)
  else if f3 = 2 then .imm .slt rd rs (immI w)
  else if f3 = 3 then .imm .sltu rd rs (immI w)
  else if f3 = 4 then .imm .xor rd rs (immI w)
  else if f3 = 6 then .imm .or rd rs (immI w)
  else if f3 = 7 then .imm .and rd rs (immI w)
  else if f3 = 1 then
    if f6 = 0 then .imm .sll rd rs sh
    else if f12 = 0x600 then .imm .clz rd rs 0
    else if f12 = 0x601 then .imm .ctz rd rs 0
    else if f12 = 0x602 then .imm .cpop rd rs 0
    else if f12 = 0x604 then .imm .sextb rd rs 0
    else if f12 = 0x605 then .imm .sexth rd rs 0
    else .illegal
  else if f6 = 0 then .imm .srl rd rs sh
  else if f6 = 0x10 then .imm .sra rd rs sh
  else if f6 = 0x18 then .imm .ror rd rs sh
  else if f12 = 0x287 then .imm .orcb rd rs 0
  else if f12 = 0x6B8 then .imm .rev8 rd rs 0
  else .illegal

/-- OP-IMM-32. -/
def decOpImmW (w : Nat) : Rv :=
  let f3 := bits w 14 12
  let rd := bits w 11 7
  let rs := bits w 19 15
  let f7 := bits w 31 25
  let f12 := bits w 31 20
  let sh := BitVec.ofNat 64 (bits w 24 20)
  if f3 = 0 then .imm .addw rd rs (immI w)
  else if f3 = 1 then
    if f7 = 0 then .imm .sllw rd rs sh
    else if bits w 31 26 = 2 then .imm .slliuw rd rs (BitVec.ofNat 64 (bits w 25 20))
    else if f12 = 0x600 then .imm .clzw rd rs 0
    else if f12 = 0x601 then .imm .ctzw rd rs 0
    else if f12 = 0x602 then .imm .cpopw rd rs 0
    else .illegal
  else if f3 = 5 then
    if f7 = 0 then .imm .srlw rd rs sh
    else if f7 = 0x20 then .imm .sraw rd rs sh
    else if f7 = 0x30 then .imm .rorw rd rs sh
    else .illegal
  else .illegal

/-- OP and OP-32, by opcode, funct7 and funct3. -/
def regTable : List ((Nat × Nat × Nat) × Alu) :=
  [((0x33, 0x00, 0), .add), ((0x33, 0x20, 0), .sub), ((0x33, 0x00, 1), .sll), ((0x33, 0x00, 2), .slt),
   ((0x33, 0x00, 3), .sltu), ((0x33, 0x00, 4), .xor), ((0x33, 0x00, 5), .srl), ((0x33, 0x20, 5), .sra),
   ((0x33, 0x00, 6), .or), ((0x33, 0x00, 7), .and)]
  ++ [((0x33, 0x01, 0), .mul), ((0x33, 0x01, 1), .mulh), ((0x33, 0x01, 2), .mulhsu), ((0x33, 0x01, 3), .mulhu),
   ((0x33, 0x01, 4), .div), ((0x33, 0x01, 5), .divu), ((0x33, 0x01, 6), .rem), ((0x33, 0x01, 7), .remu)]
  ++ [((0x33, 0x10, 2), .sh1add), ((0x33, 0x10, 4), .sh2add), ((0x33, 0x10, 6), .sh3add),
   ((0x33, 0x20, 7), .andn), ((0x33, 0x20, 6), .orn), ((0x33, 0x20, 4), .xnor), ((0x33, 0x05, 4), .min),
   ((0x33, 0x05, 5), .minu), ((0x33, 0x05, 6), .max), ((0x33, 0x05, 7), .maxu), ((0x33, 0x30, 1), .rol),
   ((0x33, 0x30, 5), .ror)]
  ++ [((0x3B, 0x00, 0), .addw), ((0x3B, 0x20, 0), .subw), ((0x3B, 0x00, 1), .sllw), ((0x3B, 0x00, 5), .srlw),
   ((0x3B, 0x20, 5), .sraw), ((0x3B, 0x01, 0), .mulw), ((0x3B, 0x01, 4), .divw), ((0x3B, 0x01, 5), .divuw),
   ((0x3B, 0x01, 6), .remw), ((0x3B, 0x01, 7), .remuw)]
  ++ [((0x3B, 0x04, 0), .adduw), ((0x3B, 0x10, 2), .sh1adduw), ((0x3B, 0x10, 4), .sh2adduw),
   ((0x3B, 0x10, 6), .sh3adduw), ((0x3B, 0x30, 1), .rolw), ((0x3B, 0x30, 5), .rorw)]

/-- OP and OP-32. -/
def decReg (w : Nat) : Rv :=
  let rd := bits w 11 7
  let a := bits w 19 15
  let b := bits w 24 20
  if bits w 6 0 = 0x3B ∧ bits w 31 25 = 4 ∧ bits w 14 12 = 4 ∧ b = 0 then .imm .zexth rd a 0
  else match alookup (bits w 6 0, bits w 31 25, bits w 14 12) regTable with
    | some op => .reg op rd a b
    | none => .illegal

/-- AMO by funct5. -/
def decAmo (w : Nat) : Rv :=
  let rd := bits w 11 7
  let a := bits w 19 15
  let b := bits w 24 20
  let f5 := bits w 31 27
  let size := if bits w 14 12 = 2 then 4 else 8
  let go (op : RvAmo) : Rv := .amo op rd a b size
  if bits w 14 12 ≠ 2 ∧ bits w 14 12 ≠ 3 then .illegal
  else if f5 = 2 then (if b = 0 then .lr rd a size else .illegal)
  else if f5 = 3 then .sc rd a b size
  else if f5 = 1 then go .swap else if f5 = 0 then go .add else if f5 = 4 then go .xor
  else if f5 = 12 then go .and else if f5 = 8 then go .or else if f5 = 16 then go .min
  else if f5 = 20 then go .max else if f5 = 24 then go .minu else if f5 = 28 then go .maxu
  else .illegal

/-- SYSTEM. -/
def decSystem (w : Nat) : Rv :=
  let f3 := bits w 14 12
  if f3 = 0 then
    if w = 0x00000073 then .ecall
    else if w = 0x00100073 then .ebreak
    else if w = 0x30200073 then .mret
    else if w = 0x10500073 then .wfi
    else if w = 0x00D00073 then .wrs false
    else if w = 0x01D00073 then .wrs true
    else .illegal
  else if f3 = 4 then .illegal
  else .csr (f3 % 4) (bits w 11 7) (bits w 31 20) (decide (4 ≤ f3)) (bits w 19 15)

/-- A 32-bit instruction. -/
def decode32 (w : Nat) : Rv :=
  let op := bits w 6 0
  let f3 := bits w 14 12
  let rd := bits w 11 7
  let rs := bits w 19 15
  if op = 0x37 then .lui rd (immU w)
  else if op = 0x17 then .auipc rd (immU w)
  else if op = 0x6F then .jal rd (immJ w)
  else if op = 0x67 then (if f3 = 0 then .jalr rd rs (immI w) else .illegal)
  else if op = 0x63 then match decCond f3 with
    | some k => .branch k rs (bits w 24 20) (immB w)
    | none => .illegal
  else if op = 0x03 then match decLoad f3 with
    | some (n, sg) => .load rd rs (immI w) n sg
    | none => .illegal
  else if op = 0x23 then (if f3 ≤ 3 then .store rs (bits w 24 20) (immS w) (2 ^ f3) else .illegal)
  else if op = 0x13 then decOpImm w
  else if op = 0x1B then decOpImmW w
  else if op = 0x33 ∨ op = 0x3B then decReg w
  else if op = 0x0F then (if f3 = 0 then .fence else if f3 = 1 then .fenceI else .illegal)
  else if op = 0x2F then decAmo w
  else if op = 0x73 then decSystem w
  else .illegal

/-! ## 16-bit formats -/

/-- A register of the compact formats. -/
def creg (v : Nat) : Nat := 8 + v

/-- Quadrant 0. -/
def decC0 (w : Nat) : Rv :=
  let f3 := bits w 15 13
  let rd := creg (bits w 4 2)
  let rs := creg (bits w 9 7)
  let offW := BitVec.ofNat 64 (bits w 12 10 * 8 + bits w 6 6 * 4 + bits w 5 5 * 64)
  let offD := BitVec.ofNat 64 (bits w 12 10 * 8 + bits w 6 5 * 64)
  let nz := bits w 12 11 * 16 + bits w 10 7 * 64 + bits w 6 6 * 4 + bits w 5 5 * 8
  if f3 = 0 then (if nz = 0 then .illegal else .imm .add rd 2 (BitVec.ofNat 64 nz))
  else if f3 = 2 then .load rd rs offW 4 true
  else if f3 = 3 then .load rd rs offD 8 true
  else if f3 = 6 then .store rs rd offW 4
  else if f3 = 7 then .store rs rd offD 8
  else .illegal

/-- Quadrant 1, arithmetic on the compact registers. -/
def decC1Arith (w : Nat) : Rv :=
  let f2 := bits w 11 10
  let rd := creg (bits w 9 7)
  let b := creg (bits w 4 2)
  let sh := BitVec.ofNat 64 (bits w 12 12 * 32 + bits w 6 2)
  let k := bits w 6 5
  if f2 = 0 then .imm .srl rd rd sh
  else if f2 = 1 then .imm .sra rd rd sh
  else if f2 = 2 then .imm .and rd rd (simm (bits w 12 12 * 32 + bits w 6 2) 6)
  else if bits w 12 12 = 0 then
    (if k = 0 then .reg .sub rd rd b else if k = 1 then .reg .xor rd rd b
     else if k = 2 then .reg .or rd rd b else .reg .and rd rd b)
  else if k = 0 then .reg .subw rd rd b
  else if k = 1 then .reg .addw rd rd b
  else .illegal

/-- Quadrant 1. -/
def decC1 (w : Nat) : Rv :=
  let f3 := bits w 15 13
  let rd := bits w 11 7
  let im := simm (bits w 12 12 * 32 + bits w 6 2) 6
  let j := simm (bits w 12 12 * 2048 + bits w 11 11 * 16 + bits w 10 9 * 256 + bits w 8 8 * 1024
    + bits w 7 7 * 64 + bits w 6 6 * 128 + bits w 5 3 * 2 + bits w 2 2 * 32) 12
  let br := simm (bits w 12 12 * 256 + bits w 11 10 * 8 + bits w 6 5 * 64 + bits w 4 3 * 2 + bits w 2 2 * 32) 9
  let sp := simm (bits w 12 12 * 512 + bits w 6 6 * 16 + bits w 5 5 * 64 + bits w 4 3 * 128 + bits w 2 2 * 32) 10
  if f3 = 0 then .imm .add rd rd im
  else if f3 = 1 then (if rd = 0 then .illegal else .imm .addw rd rd im)
  else if f3 = 2 then .imm .add rd 0 im
  else if f3 = 3 then
    (if rd = 2 then (if sp = 0 then .illegal else .imm .add 2 2 sp)
     else if im = 0 then .illegal
     else .lui rd (simm (bits w 12 12 * 2 ^ 17 + bits w 6 2 * 4096) 18))
  else if f3 = 4 then decC1Arith w
  else if f3 = 5 then .jal 0 j
  else if f3 = 6 then .branch .eq (creg (bits w 9 7)) 0 br
  else .branch .ne (creg (bits w 9 7)) 0 br

/-- Quadrant 2. -/
def decC2 (w : Nat) : Rv :=
  let f3 := bits w 15 13
  let rd := bits w 11 7
  let rs := bits w 6 2
  let sh := bits w 12 12 * 32 + bits w 6 2
  let lwsp := BitVec.ofNat 64 (bits w 12 12 * 32 + bits w 6 4 * 4 + bits w 3 2 * 64)
  let ldsp := BitVec.ofNat 64 (bits w 12 12 * 32 + bits w 6 5 * 8 + bits w 4 2 * 64)
  let swsp := BitVec.ofNat 64 (bits w 12 9 * 4 + bits w 8 7 * 64)
  let sdsp := BitVec.ofNat 64 (bits w 12 10 * 8 + bits w 9 7 * 64)
  if f3 = 0 then .imm .sll rd rd (BitVec.ofNat 64 sh)
  else if f3 = 2 then (if rd = 0 then .illegal else .load rd 2 lwsp 4 true)
  else if f3 = 3 then (if rd = 0 then .illegal else .load rd 2 ldsp 8 true)
  else if f3 = 4 then
    (if bits w 12 12 = 0 then
      (if rs = 0 then (if rd = 0 then .illegal else .jalr 0 rd 0) else .reg .add rd 0 rs)
     else if rs = 0 then (if rd = 0 then .ebreak else .jalr 1 rd 0)
     else .reg .add rd rd rs)
  else if f3 = 6 then .store 2 rs swsp 4
  else if f3 = 7 then .store 2 rs sdsp 8
  else .illegal

/-- Is the instruction that begins with these 16 bits a compressed one? -/
def isC (lo : Nat) : Bool := lo % 4 != 3

/-- A 16-bit instruction. -/
def decode16 (w : Nat) : Rv :=
  if w % 4 = 0 then decC0 w else if w % 4 = 1 then decC1 w else decC2 w

/-- An instruction of 16 or 32 bits. -/
def decodeRv (w : Nat) : Rv := if isC (w % 65536) then decode16 (w % 65536) else decode32 w

/-! ## Arithmetic -/

/-- A 32-bit result, sign-extended. -/
def w32 (v : BitVec 64) : BitVec 64 := (v.truncate 32).signExtend 64

/-- Leading zeros of an n-bit value. -/
def clzN (v n : Nat) : Nat := ((upto n).find? fun i => v.testBit (n - 1 - i)).getD n
/-- Trailing zeros of an n-bit value. -/
def ctzN (v n : Nat) : Nat := ((upto n).find? fun i => v.testBit i).getD n
/-- Ones of an n-bit value. -/
def popN (v n : Nat) : Nat := ((upto n).filter fun i => v.testBit i).length

/-- Signed division that rounds to zero, with the corners of the M extension. -/
def rvDiv (a b : Int) : Int := if b = 0 then -1 else Int.tdiv a b
/-- The remainder that goes with it. -/
def rvRem (a b : Int) : Int := if b = 0 then a else Int.tmod a b

/-- The result of an operation on two 64-bit values; a one-operand operation ignores the second. -/
def aluDo (op : Alu) (a b : BitVec 64) : BitVec 64 :=
  let s6 := b.toNat % 64
  let s5 := b.toNat % 32
  let lo : BitVec 32 := a.truncate 32
  let au : BitVec 64 := lo.zeroExtend 64
  let sa : Int := lo.toInt
  let sb : Int := (b.truncate 32 : BitVec 32).toInt
  let ua := a.toNat % 2 ^ 32
  let ub := b.toNat % 2 ^ 32
  let rot (x n w : Nat) : Nat := (x * 2 ^ n + x / 2 ^ (w - n)) % 2 ^ w
  match op with
  | .add => a + b | .sub => a - b | .sll => a <<< s6
  | .slt => if a.toInt < b.toInt then 1 else 0
  | .sltu => if a.toNat < b.toNat then 1 else 0
  | .xor => a ^^^ b | .srl => a >>> s6 | .sra => a.sshiftRight s6 | .or => a ||| b | .and => a &&& b
  | .addw => w32 (a + b) | .subw => w32 (a - b) | .sllw => w32 (a <<< s5)
  | .srlw => w32 (au >>> s5) | .sraw => (lo.sshiftRight s5).signExtend 64
  | .mul => a * b
  | .mulh => BitVec.ofInt 64 (a.toInt * b.toInt / 2 ^ 64)
  | .mulhsu => BitVec.ofInt 64 (a.toInt * b.toNat / 2 ^ 64)
  | .mulhu => BitVec.ofNat 64 (a.toNat * b.toNat / 2 ^ 64)
  | .div => BitVec.ofInt 64 (rvDiv a.toInt b.toInt)
  | .divu => if b = 0 then BitVec.allOnes 64 else BitVec.ofNat 64 (a.toNat / b.toNat)
  | .rem => BitVec.ofInt 64 (rvRem a.toInt b.toInt)
  | .remu => if b = 0 then a else BitVec.ofNat 64 (a.toNat % b.toNat)
  | .mulw => w32 (a * b)
  | .divw => w32 (BitVec.ofInt 64 (rvDiv sa sb))
  | .divuw => if ub = 0 then BitVec.allOnes 64 else w32 (BitVec.ofNat 64 (ua / ub))
  | .remw => w32 (BitVec.ofInt 64 (rvRem sa sb))
  | .remuw => if ub = 0 then w32 a else w32 (BitVec.ofNat 64 (ua % ub))
  | .adduw => au + b | .slliuw => au <<< s6
  | .sh1add => (a <<< 1) + b | .sh2add => (a <<< 2) + b | .sh3add => (a <<< 3) + b
  | .sh1adduw => (au <<< 1) + b | .sh2adduw => (au <<< 2) + b | .sh3adduw => (au <<< 3) + b
  | .andn => a &&& ~~~b | .orn => a ||| ~~~b | .xnor => ~~~(a ^^^ b)
  | .max => if a.toInt < b.toInt then b else a
  | .maxu => if a.toNat < b.toNat then b else a
  | .min => if a.toInt < b.toInt then a else b
  | .minu => if a.toNat < b.toNat then a else b
  | .rol => BitVec.ofNat 64 (rot a.toNat s6 64)
  | .ror => BitVec.ofNat 64 (rot a.toNat ((64 - s6) % 64) 64)
  | .rolw => w32 (BitVec.ofNat 64 (rot ua s5 32))
  | .rorw => w32 (BitVec.ofNat 64 (rot ua ((32 - s5) % 32) 32))
  | .clz => BitVec.ofNat 64 (clzN a.toNat 64)
  | .ctz => BitVec.ofNat 64 (ctzN a.toNat 64)
  | .cpop => BitVec.ofNat 64 (popN a.toNat 64)
  | .clzw => BitVec.ofNat 64 (clzN ua 32)
  | .ctzw => BitVec.ofNat 64 (ctzN ua 32)
  | .cpopw => BitVec.ofNat 64 (popN ua 32)
  | .sextb => (a.truncate 8 : BitVec 8).signExtend 64
  | .sexth => (a.truncate 16 : BitVec 16).signExtend 64
  | .zexth => (a.truncate 16 : BitVec 16).zeroExtend 64
  | .orcb => BitVec.ofNat 64 (leNat ((leBytes 8 a.toNat).map fun x => if x = 0#8 then 0x00#8 else 0xFF#8))
  | .rev8 => BitVec.ofNat 64 (leNat (leBytes 8 a.toNat).reverse)

/-- Does a branch condition hold? -/
def condHolds (k : Cond) (a b : BitVec 64) : Bool :=
  match k with
  | .eq => a == b | .ne => a != b
  | .lt => decide (a.toInt < b.toInt) | .ge => decide (b.toInt ≤ a.toInt)
  | .ltu => decide (a.toNat < b.toNat) | .geu => decide (b.toNat ≤ a.toNat)

end Sys2Proof.Machine
end

