-- ==== Sys2Proof/Machine/Steward.lean ====
section
/-! DEFINITION. The steward's execution (R168 to R174, R181): CSRs, PMP, traps and interrupts, the fetch
through its instruction cache, one instruction, the end of an access, and WRS waits. What R168 takes from the
RISC-V standards stands in PRESUMED, log entry 20. -/

namespace Sys2Proof.Machine

/-! ## Registers -/

/-- x[r]; x0 reads as zero. -/
def Steward.get (w : Steward) (r : Nat) : BitVec 64 := if r = 0 then 0 else nth 0 w.x r

/-- x[r] written; x0 discards. -/
def Steward.setX (w : Steward) (r : Nat) (v : BitVec 64) : Steward :=
  if r = 0 then w else { w with x := put w.x r v }

/-- A CSR that holds a value; sdtimecmp resets to all ones (R171), the others to zero. -/
def Steward.csrVal (w : Steward) (n : Nat) : Nat := aget (if n = 0x7C0 then ones64 else 0) n w.csr

/-- A CSR written as it is. -/
def Steward.csrPut (w : Steward) (n v : Nat) : Steward := { w with csr := aset n (v % 2 ^ 64) w.csr }

/-! ## Interrupts (R172) -/

/-- mip: MEIP, MTIP and MSIP. -/
def mip (s : State) (c : Nat) : Nat :=
  let w := (s.core c).stw
  2 ^ 11 * b2n (pageInterrupt s (.core c)) + 2 ^ 7 * b2n (decide (w.csrVal 0x7C0 ≤ s.now)) + 2 ^ 3 * b2n w.msip

/-- Interrupts pending and enabled in mie. -/
def enabledInterrupts (s : State) (c : Nat) : Nat := mip s c &&& (s.core c).stw.csrVal 0x304

/-- The interrupt that is taken now, highest priority first: MEI, MSI, MTI. -/
def interruptDue (s : State) (c : Nat) : Option Nat :=
  let w := (s.core c).stw
  if !w.user && !bit (w.csrVal 0x300) 3 then none
  else [11, 3, 7].find? fun i => bit (enabledInterrupts s c) i

/-! ## Traps (R172) -/

/-- A trap is taken: mepc, mcause, mtval and mstatus as the privileged architecture has them; then to mtvec,
or, while mtvec is 0, into HALT. (DEDUCED, log entry 21) -/
def trap (c cause : Nat) (irq : Bool) (tval : Nat) (s : State) : State :=
  let w := (s.core c).stw
  let m := w.csrVal 0x300
  let kept := m - fld (bits m 12 11) 12 11 - fld (bits m 7 7) 7 7 - fld (bits m 3 3) 3 3
  let m := kept + fld (if w.user then 0 else 3) 12 11 + fld (bits m 3 3) 7 7
  let w := (((w.csrPut 0x300 m).csrPut 0x341 w.pc.toNat).csrPut 0x342 (cause + 2 ^ 63 * b2n irq)).csrPut 0x343 tval
  let w := { w with user := false, wait := .nothing }
  let tvec := w.csrVal 0x305
  if tvec = 0 then
    let code := cause % 128 + 128 * b2n irq
    raiseEv (.core c) evStewardTrap (detUnit code 0 w.pc.toNat)
      (s.setStw c { w with st := .halt, cause := code, haltPc := w.pc.toNat })
  else
    let at' := tvec - tvec % 4 + (if irq ∧ tvec % 4 = 1 then 4 * cause else 0)
    s.setStw c { w with pc := BitVec.ofNat 64 at' }

/-- An access-fault exception: sdfaultcode tells the event (R171). -/
def accessFault (c cause code tval : Nat) (s : State) : State :=
  trap c cause false tval (s.setStw c ((s.core c).stw.csrPut 0x7C1 code))

/-- An illegal-instruction exception. -/
def illegal (c bits_ : Nat) (s : State) : State := trap c 2 false (if Config.illegalTval then bits_ else 0) s

/-- The instruction of len bytes retires and the pc moves past it. -/
def Steward.retire (w : Steward) (len : Nat) : Steward :=
  { w with pc := w.pc + BitVec.ofNat 64 len, instret := (w.instret + 1) % 2 ^ 64 }

/-! ## PMP (R170) -/

/-- The configuration byte of PMP entry i. -/
def pmpCfg (w : Steward) (i : Nat) : Nat := bits (w.csrVal (0x3A0 + i / 8 * 2)) (8 * (i % 8) + 7) (8 * (i % 8))

/-- Does PMP entry i match an address? Regions are whole blocks of 64 B. -/
def pmpMatch (w : Steward) (a i : Nat) : Bool :=
  let mode := bits (pmpCfg w i) 4 3
  let reg := w.csrVal (0x3B0 + i)
  if mode = 1 then
    let lo := if i = 0 then 0 else w.csrVal (0x3B0 + i - 1) / 16
    decide (lo ≤ a / 64) && decide (a / 64 < reg / 16)
  else if mode = 3 then
    let v := reg ||| 7
    let m := v ^^^ (v + 1)
    (a / 4 ||| m) == (v ||| m)
  else false

/-- May the mode access this address: kind 0 read, 1 write, 2 execute? -/
def pmpOk (w : Steward) (user : Bool) (va kind : Nat) : Bool :=
  let a := va % 2 ^ 52
  match (upto 16).find? (pmpMatch w a) with
  | none => !user
  | some i => (!user && !bit (pmpCfg w i) 7) || bit (pmpCfg w i) kind

/-- A write of PMP configuration byte i: a locked entry stays, write permission without read is dropped, and
NA4 is not selectable. -/
def pmpCfgByte (old v : Nat) : Nat :=
  if bit old 7 then old
  else
    let rwx := if bits v 1 0 = 2 then bits v 2 2 * 4 else bits v 2 0
    let mode := if bits v 4 3 = 2 then bits old 4 3 else bits v 4 3
    rwx + fld mode 4 3 + fld (bits v 7 7) 7 7

/-- A write of a PMP configuration register: eight bytes. -/
def pmpCfgWrite (w : Steward) (n v : Nat) : Steward :=
  w.csrPut n (leNat ((upto 8).map fun j =>
    BitVec.ofNat 8 (pmpCfgByte (bits (w.csrVal n) (8 * j + 7) (8 * j)) (bits v (8 * j + 7) (8 * j)))))

/-- A write of a PMP address register, unless its entry, or the range that the next entry ends, is locked. -/
def pmpAddrWrite (w : Steward) (i v : Nat) : Steward :=
  let next := i < 15 && bit (pmpCfg w (i + 1)) 7 && bits (pmpCfg w (i + 1)) 4 3 == 1
  if bit (pmpCfg w i) 7 || next then w else w.csrPut (0x3B0 + i) (v % 2 ^ 54)

/-- What a PMP address register reads: with a granularity of 64 B its low bits depend on its entry's mode. -/
def pmpAddrRead (w : Steward) (i : Nat) : Nat :=
  let v := w.csrVal (0x3B0 + i)
  if bits (pmpCfg w i) 4 3 ≥ 2 then v ||| 7 else alignDown v 16

/-! ## CSRs (R168, R171) -/

/-- A read of the cycle count: a free value within its bounds and no smaller than the last (R171). -/
def cycleRead (c : Nat) (s : State) : Nat × State :=
  let w := (s.core c).stw
  let b := w.cycles.bounds s.sec.t0 s.sec.readyT s.now
  let d := s.draw 64
  let v := max w.cycles.last (b.1 + d.1 % (b.2 - b.1 + 1))
  (v % 2 ^ 64, d.2.setStw c { w with cycles := { lo := v, hi := v, last := v, since := some s.now } })

/-- A write of mcycle: the count goes on from the value (R171). -/
def cycleWrite (c v : Nat) (s : State) : State :=
  s.setStw c { (s.core c).stw with cycles := { lo := v, hi := v, last := v, since := some s.now } }

/-- The value of a CSR; none where it does not exist. -/
def csrRead (c n : Nat) (s : State) : Option (Nat × State) :=
  let w := (s.core c).stw
  let fixed := fun (v : Nat) => some (v, s)
  if n = 0x300 then fixed (w.csrVal 0x300 + 2 * 2 ^ 32)
  else if n = 0x301 then fixed (2 * 2 ^ 62 + 0x101105)
  else if n = 0x344 then fixed (mip s c)
  else if n = 0x304 ∨ n = 0x305 ∨ n = 0x306 ∨ (0x340 ≤ n ∧ n ≤ 0x343) ∨ n = 0x7C0 ∨ n = 0x7C1 ∨ n = 0x3A0 ∨ n = 0x3A2 then
    fixed (w.csrVal n)
  else if 0x3B0 ≤ n ∧ n ≤ 0x3BF then fixed (pmpAddrRead w (n - 0x3B0))
  else if n = 0xB00 ∨ n = 0xC00 then some (cycleRead c s)
  else if n = 0xC01 then fixed (s.now % 2 ^ 64)
  else if n = 0xB02 ∨ n = 0xC02 then fixed w.instret
  else if n = 0xF14 then fixed c
  else if n = 0xFC0 then fixed s.deviceId
  else if n = 0xCC0 then fixed (match w.monitor with
    | some (a, _) => 2 ^ 63 + a % 2 ^ 52
    | none => 0)
  else if n = 0xF11 ∨ n = 0xF12 ∨ n = 0xF13 ∨ n = 0xF15 ∨ n = 0x30A ∨ n = 0x320 ∨ (0x323 ≤ n ∧ n ≤ 0x33F)
      ∨ (0xB03 ≤ n ∧ n ≤ 0xB1F) ∨ (0xC03 ≤ n ∧ n ≤ 0xC1F) then fixed 0
  else none

/-- mstatus as it takes a written value: MPRV, TW, MPP of 0 or 3, MPIE and MIE. -/
def mstatusOf (old v : Nat) : Nat :=
  let mpp := if bits v 12 11 = 0 ∨ bits v 12 11 = 3 then bits v 12 11 else bits old 12 11
  fld (bits v 21 21) 21 21 + fld (bits v 17 17) 17 17 + fld mpp 12 11 + fld (bits v 7 7) 7 7 + fld (bits v 3 3) 3 3

/-- A CSR written with a value, as far as it holds it. -/
def csrWrite (w : Steward) (n v : Nat) : Steward :=
  if n = 0x300 then w.csrPut n (mstatusOf (w.csrVal n) v)
  else if n = 0x304 then w.csrPut n (v &&& 0x888)
  else if n = 0x305 then w.csrPut n (v - v % 4 + v % 2)
  else if n = 0x306 then w.csrPut n (v % 8)
  else if n = 0x341 then w.csrPut n (v - v % 2)
  else if n = 0x340 ∨ n = 0x342 ∨ n = 0x343 ∨ n = 0x7C0 then w.csrPut n v
  else if n = 0x7C1 then w.csrPut n (v % 65536)
  else if n = 0x3A0 ∨ n = 0x3A2 then pmpCfgWrite w n v
  else if 0x3B0 ≤ n ∧ n ≤ 0x3BF then pmpAddrWrite w (n - 0x3B0) v
  else if n = 0xB02 then { w with instret := (v + 2 ^ 64 - 1) % 2 ^ 64 }
  else w

/-- May this mode name the CSR: its privilege bits, and mcounteren for the counters in U mode? -/
def csrAllowed (w : Steward) (n : Nat) : Bool :=
  if !w.user then true
  else if 0xC00 ≤ n ∧ n ≤ 0xC1F then bit (w.csrVal 0x306) (n - 0xC00)
  else bits n 9 8 == 0

/-- CSRRW (1), CSRRS (2) and CSRRC (3). -/
def csrInstr (c w len op rd n : Nat) (imm : Bool) (src : Nat) (s : State) : State :=
  let stw := (s.core c).stw
  let writes := op == 1 || src != 0
  if !csrAllowed stw n || (writes && bits n 11 10 == 3) then illegal c w s
  else match csrRead c n s with
    | none => illegal c w s
    | some (old, s) =>
      let stw := (s.core c).stw
      let v := if imm then src else (stw.get src).toNat
      let new := if op = 1 then v else if op = 2 then old ||| v else (old ||| v) - v
      let stw := if writes then csrWrite stw n new else stw
      let s := s.setStw c ((stw.setX rd (BitVec.ofNat 64 old)).retire len)
      if writes && n == 0xB00 then cycleWrite c (new % 2 ^ 64) s else s

/-! ## Fetch (R168, R169) -/

/-- What a fetch yields. -/
inductive Fetched where
  /-- An instruction: its bits and its length in bytes. -/
  | got (w len : Nat)
  /-- An exception: cause, event number and mtval. -/
  | fault (cause code tval : Nat)
  /-- A line is on its way from another home. -/
  | coming
deriving DecidableEq, Repr

/-- A line enters the instruction cache: 256 lines of 64 B, the least recently used leaves. -/
def Steward.install (w : Steward) (line : Nat) (bs : List Byte) : Steward :=
  { w with icache := ((line, bs) :: w.icache.filter fun l => l.1 != line).take 256 }

/-- The line with this hall address, from the cache or from its home; none while it is on its way. -/
def fetchLine (c line : Nat) (s : State) : Option Resp × State :=
  let w := (s.core c).stw
  match alookup line w.icache with
  | some bs => (some (.ok bs), s.setStw c (w.install line bs))
  | none =>
    let q : Req := ⟨.steward c, localOf line, .fetched c line, devOf line⟩
    let waiting (s : State) : State := s.setStw c { (s.core c).stw with wait := .fetch line }
    match remoteOf s line with
    | some d => match remoteRequest q d (.load 64 false) false none s with
      | some s => (none, waiting s)
      | none => refuseRemote d q s
    | none => match serveAny q (.load 64 false) .ordinary true s with
      | (some (.ok bs), s) => (some (.ok bs), s.setStw c ((s.core c).stw.install line bs))
      | (some e, s) => (some e, s)
      | (none, s) => (none, waiting s)

/-- The 16 bits at an even address. -/
def fetchHalf (c a : Nat) (s : State) : Fetched × State :=
  let w := (s.core c).stw
  if !pmpOk w w.user a 2 then (.fault 1 0 a, s)
  else if 2 ^ 52 ≤ a then
    (.fault 1 evAddrUnmapped a, raiseEv (.core c) evAddrUnmapped (detAddr a (bits a 51 40) (.steward c)) s)
  else match fetchLine c (alignDown a 64) s with
    | (some (.ok bs), s) => (.got (leNat ((bs.drop (a % 64)).take 2)) 2, s)
    | (some (.err code), s) => (.fault 1 code a, s)
    | (none, s) => (.coming, s)

/-- The instruction at the pc. -/
def fetch (c : Nat) (s : State) : Fetched × State :=
  let pc := (s.core c).stw.pc.toNat
  if pc % 2 = 1 then (.fault 0 0 pc, s)
  else match fetchHalf c pc s with
    | (.got lo _, s) =>
      if isC lo then (.got lo 2, s)
      else match fetchHalf c ((pc + 2) % 2 ^ 64) s with
        | (.got hi _, s) => (.got (lo + 65536 * hi) 4, s)
        | r => r
    | r => r

/-! ## One instruction -/

/-- Instructions that have rows of their own in the table, and the others. -/
inductive RvKind where
  | plain | load | store | amo | lr | sc | fenceI | wrsNto | wrsSto
deriving DecidableEq, Repr

/-- The row an instruction belongs to. -/
def Rv.kind : Rv → RvKind
  | .load .. => .load | .store .. => .store | .amo .. => .amo | .lr .. => .lr | .sc .. => .sc
  | .fenceI => .fenceI | .wrs false => .wrsNto | .wrs true => .wrsSto
  | .lui .. => .plain | .auipc .. => .plain | .jal .. => .plain | .jalr .. => .plain | .branch .. => .plain
  | .imm .. => .plain | .reg .. => .plain | .fence => .plain | .ecall => .plain | .ebreak => .plain
  | .mret => .plain | .wfi => .plain | .csr .. => .plain | .illegal => .plain

/-- An access of the steward (R169): alignment, PMP, bits [63:52], then the access itself; the instruction
completes with its answer. Causes 4 and 5 are those of loads, 6 and 7 those of stores and AMOs; `away` marks an LR.D on
another device's alias. -/
def memIssue (c len va size : Nat) (isLoad : Bool) (acc : Acc) (cont : Cont) (s : State) (away : Bool := false) : State :=
  let w := (s.core c).stw
  let mis := if isLoad then 4 else 6
  let kind := if isLoad then 0 else 1
  if va % size ≠ 0 then trap c mis false va s
  else if !pmpOk w w.dataUser va kind then accessFault c (mis + 1) 0 va s
  else if 2 ^ 52 ≤ va then
    accessFault c (mis + 1) evAddrUnmapped va
      (raiseEv (.core c) evAddrUnmapped (detAddr va (bits va 51 40) (.steward c)) s)
  else submitHall (.steward c) va acc cont false
    (s.setStw c { w with wait := .access len va (mis + 1), lrAway := away })

/-- The access of the A extension that an AMO asks for. -/
def RvAmo.acc : RvAmo → AmoOp
  | .swap => .swap | .add => .add | .xor => .xor | .and => .and | .or => .or | .min => .min | .max => .max
  | .minu => .minu | .maxu => .maxu

/-- WRS (R181): at once where the monitor is not armed, has fired, or an enabled interrupt is pending; else
the wait begins. -/
def wrsBegin (c len : Nat) (sto : Bool) (s : State) : State :=
  let w := (s.core c).stw
  let armed := match w.monitor with
    | some (_, fired) => !fired
    | none => false
  if armed && enabledInterrupts s c == 0 then s.setStw c { w with wait := .wrs sto s.now }
  else
    let s := disarm c s
    s.setStw c ((s.core c).stw.retire len)

/-- MRET. -/
def mret (c : Nat) (s : State) : State :=
  let w := (s.core c).stw
  let m := w.csrVal 0x300
  let mpp := bits m 12 11
  let m' := fld (bits m 21 21) 21 21 + (if mpp = 3 then fld (bits m 17 17) 17 17 else 0) + fld 1 7 7
    + fld (bits m 7 7) 3 3
  s.setStw c { (w.csrPut 0x300 m') with user := mpp != 3, pc := BitVec.ofNat 64 (w.csrVal 0x341)
                                        instret := (w.instret + 1) % 2 ^ 64 }

/-- One instruction of len bytes with the bits w at the pc. -/
def rvDo (c w len : Nat) (i : Rv) (s : State) : State :=
  let stw := (s.core c).stw
  let x := stw.get
  let done (rd : Nat) (v : BitVec 64) : State := s.setStw c ((stw.setX rd v).retire len)
  let next := stw.pc + BitVec.ofNat 64 len
  let jump (rd : Nat) (t : BitVec 64) : State :=
    s.setStw c { (stw.setX rd next) with pc := t, instret := (stw.instret + 1) % 2 ^ 64 }
  let ea (rs : Nat) (off : BitVec 64) : Nat := (x rs + off).toNat
  match i with
  | .lui rd v => done rd v
  | .auipc rd v => done rd (stw.pc + v)
  | .jal rd off => jump rd (stw.pc + off)
  | .jalr rd rs off => jump rd ((x rs + off) &&& ~~~1)
  | .branch k a b off => if condHolds k (x a) (x b) then jump 0 (stw.pc + off) else done 0 0
  | .imm op rd rs v => done rd (aluDo op (x rs) v)
  | .reg op rd a b => done rd (aluDo op (x a) (x b))
  | .fence => done 0 0
  | .fenceI => s.setStw c { stw.retire len with icache := [] }
  | .ecall => trap c (if stw.user then 8 else 11) false 0 s
  | .ebreak => trap c 3 false (if Config.ebreakTval then stw.pc.toNat else 0) s
  | .mret => if stw.user then illegal c w s else mret c s
  | .wfi => if stw.user && bit (stw.csrVal 0x300) 21 then illegal c w s else done 0 0
  | .wrs sto => wrsBegin c len sto s
  | .csr op rd n imm src => csrInstr c w len op rd n imm src s
  | .load rd rs off n sg => memIssue c len (ea rs off) n true (.load n false) (.toReg c rd n sg) s
  | .store rs src off n =>
    memIssue c len (ea rs off) n false (.store (leBytes n (x src).toNat)) (.stored c) s
  | .lr rd rs n =>
    let va := (x rs).toNat
    memIssue c len va n true (.load n true) (.toReg c rd n true) s (n == 8 && (remoteOf s va).isSome && isAlias va)
  | .sc rd rs src n => memIssue c len (x rs).toNat n false (.sc n ((x src).toNat % 2 ^ (8 * n))) (.scDone c rd) s
  | .amo op rd rs src n =>
    memIssue c len (x rs).toNat n false (.amo op.acc n ((x src).toNat % 2 ^ (8 * n))) (.toReg c rd n true) s
  | .illegal => illegal c w s

/-- Does the steward of core c issue instructions now (R173, R174)? (DEDUCED, log entry 11) -/
def stwRunnable (s : State) (c : Nat) : Bool :=
  let w := (s.core c).stw
  s.awake c && w.st == .run && w.wait == .nothing && !w.stopping

/-- The instruction at the pc runs if it belongs to this row; nothing happens where it belongs to another. The
row of the others also has what comes of a fetch that fails or that another home must answer. -/
def stwInstr (c : Nat) (k : RvKind) (s : State) : State :=
  match fetch c s with
  | (.got w len, s') => let i := decodeRv w
    if i.kind = k then rvDo c w len i s' else s
  | (.fault cause code tval, s') =>
    if k ≠ .plain then s else if cause = 0 then trap c 0 false tval s' else accessFault c cause code tval s'
  | (.coming, s') => if k = .plain then s' else s

/-! ## The end of an access -/

/-- The 64-bit value of `n` bytes as a load, LR or AMO leaves it in a register. -/
def loadValue (n : Nat) (signed : Bool) (bs : List Byte) : BitVec 64 :=
  let v := leNat (bs.take n)
  if signed then simm v (8 * n) else BitVec.ofNat 64 v

/-- The access that the steward waits for is answered: its result, or its exception (R26, R171, R180). A
steward that is to stop does so now (R174). -/
def stwAnswered (c : Nat) (rd : Option (Nat × Nat × Bool)) (r : Resp) (s : State) : State :=
  match (s.core c).stw.wait with
  | .access len va cause =>
    let w := { (s.core c).stw with wait := .nothing }
    let stop := w.stopping
    let s := match r with
      | .ok bs =>
        let s := if w.lrAway then disarm c s else s
        let w := { w with monitor := (s.core c).stw.monitor, lrAway := false }
        let w := match rd with
          | some (d, n, sg) => w.setX d (loadValue n sg bs)
          | none => w
        s.setStw c (w.retire len)
      | .err code => accessFault c cause code va (s.setStw c w)
    if stop then enterIdle c s else s
  | _ => s

/-- A line of instructions arrives from another home. -/
def stwFetched (c line : Nat) (r : Resp) (s : State) : State :=
  let w := (s.core c).stw
  if w.wait ≠ .fetch line then s
  else
    let w := { w with wait := .nothing }
    match r with
    | .ok bs => s.setStw c (w.install line bs)
    | .err code =>
      let pc := w.pc.toNat
      accessFault c 1 code (if alignDown pc 64 = line then pc else line) (s.setStw c w)

/-! ## Launch, interrupts, WRS waits -/

/-- Does the IDLE steward take its launch word (R173, R186)? -/
def launchDue (s : State) (c : Nat) : Bool :=
  s.awake c && (s.core c).stw.st == .idle && (alookup 0 (s.core c).bol.full).isSome

/-- The bollard unit TAKEs the launch word; the steward runs. -/
def launch (c : Nat) (s : State) : State :=
  let r := s.core c
  let v := (aget 0 0 r.bol.full).toNat
  let s := noYounger c s
  let (b, _) := bolDo (s.core c).bol 0 none
  let w := { r.stw with st := .run, user := false, pc := BitVec.ofNat 64 (bits v 51 0), wait := .nothing
                        stopping := false }
  let s := s.setCore c { s.core c with bol := b, stw := w.setX 10 (BitVec.ofNat 64 (bits v 63 52)) }
  bolSettle c 0 33 s

/-- A WRS wait that its monitor or an enabled interrupt ends (R181). -/
def wrsWakeDue (s : State) (c : Nat) : Bool :=
  let w := (s.core c).stw
  s.awake c && (match w.wait with
    | .wrs _ _ => true
    | _ => false) && ((match w.monitor with
    | some (_, fired) => fired
    | none => true) || enabledInterrupts s c != 0)

/-- A WRS wait that has reached its bound: WRS_LIMIT, and for WRS.STO 1,024 steward cycles, which end within
the 86th tick (R181). -/
def wrsLimitDue (s : State) (c : Nat) : Bool :=
  let lim := s.wrsLimit c
  match (s.core c).stw.wait with
  | .wrs sto t0 => (lim != 0 && s.past t0 lim) || (sto && s.past t0 86)
  | _ => false

/-- The bound of a WRS wait: the wait ends, or in a polder that is not ACTIVE wakes it (R423). -/
def wrsLimit (c : Nat) (s : State) : State :=
  if (s.polder (polderOf c)).state = 0 then wrsEnd c s else markWake (polderOf c) 3 s

/-- sdtimecmp is reached: MTIP follows it; with MTIE enabled a polder that is not ACTIVE wakes (R171, R423). -/
def timerMatch (c : Nat) (s : State) : State :=
  if bit ((s.core c).stw.csrVal 0x304) 7 then markWake (polderOf c) 3 s else s

end Sys2Proof.Machine
end

