-- ==== Sys2Proof/Machine/Finish.lean ====
section
/-! DEFINITION. How a command ends: every answer on its way reaches its issuer, whatever that sets going is
done, and the sluice notes which polders are quiescent. `perform` is the wrapper of the commands of a device
in service. -/

namespace Sys2Proof.Machine

/-- An acknowledgement reaches the owner of a write (R32). -/
def ownerAnswered (o : Owner) (r : Resp) (s : State) : State :=
  match o with
  | .strand c n j => strandAnswered c n j r s
  | .tag k t => tagAnswered k t r s
  | .sender k => senderAnswered k r s
  | .aux k => auxAnswered k r s
  | .fanout => fanAnswered r s
  | .relay id => relayNote id r s
  | .engine _ _ => s | .answer _ => s | .roce _ => s | .nobody => s

/-- An answer that waited for the copies of its write leaves when none is outstanding (R312). -/
def undefer (id : Nat) (s : State) : State :=
  if s.owes (· == .answer id) then s
  else match s.fab.deferred.find? fun d => d.id == id with
    | none => s
    | some d => answer d.req d.resp
        { s with fab := { s.fab with deferred := s.fab.deferred.filter fun x => x.id != id } }

/-- The copy of a write in mirror region m is answered; a failure suspends the region and the write counts as
performed (R312, R313). -/
def copyAnswered (m : Nat) (o : Owner) (r : Resp) (s : State) : State :=
  let s := match r with
    | .err _ => suspendMirror m s
    | .ok _ => s
  match o with
  | .answer id => undefer id s
  | .strand c n j => strandAnswered c n j (.ok []) s
  | _ => s

/-- The core whose steward an answer reaches. -/
def contSteward : Cont → Option Nat
  | .toReg c _ _ _ => some c | .stored c => some c | .scDone c _ => some c | .fetched c _ => some c
  | _ => none

/-- Is the polder's logic powered down: DRAINED or WAKING (R420)? -/
def State.dark (s : State) (p : Nat) : Bool := (s.polder p).state == 2 || (s.polder p).state == 3

/-- The crossing at which an answer to a steward waits: that of its polder while it is dark. -/
def parkedAt (s : State) (q : Req) : Option Nat :=
  match contSteward q.cont with
  | some c => if s.dark (polderOf c) then some (polderOf c) else none
  | none => none

/-- An answer waits at a crossing and wakes the polder: as a bollard's notice, or at a bollard timeout (R423, R430). -/
def park (p : Nat) (q : Req) (r : Resp) (s : State) : State :=
  markWake p (if r = .err evBollardTimeout then 3 else 1) { s with parked := s.parked ++ [(p, q, r)] }

/-- The answers that crossings of polders no longer hold are on their way. -/
def unpark (s : State) : State :=
  let out := s.parked.filter fun a => !s.dark a.1
  { s with parked := s.parked.filter (fun a => s.dark a.1), answers := s.answers ++ out.map (·.2) }

/-- One answer reaches what waits for it. -/
def deliver (q : Req) (r : Resp) (s : State) : State :=
  match q.cont with
  | .none => s
  | .toReg c rd n sg => stwAnswered c (some (rd, n, sg)) r s
  | .stored c => stwAnswered c none r s
  | .scDone c rd => stwAnswered c (some (rd, 1, false)) r s
  | .fetched c line => stwFetched c line r s
  | .respond opc dst reqId ordered tdry => respondPacket opc dst reqId q.addr ordered tdry r s
  | .roce i psn _ => roceAnswered i psn r s
  | .tmpEntry id => tmpAnswered id r s
  | .ack o => ownerAnswered o r s
  | .mirrored m o => copyAnswered m o r s
  | .signal => s
  | .strandData c n j => strandDataArrives c n j r s

/-- One answer reaches what waits for it, or waits at a crossing. -/
def complete (q : Req) (r : Resp) (s : State) : State :=
  match parkedAt s q with
  | some p => park p q r s
  | none => deliver q r s

/-- Requests of a queue pair begin until one is being performed. -/
def roceLoop (i : Nat) : Nat → State → State
  | 0, s => s
  | fuel + 1, s => if (s.qp i).serving.isSome || (s.qp i).waiting.isEmpty then s else roceLoop i fuel (roceNext i s)

/-- What open gates held is served (R264, R274, R416). -/
def openGates (s : State) : State :=
  each ((s.held.map (·.gate)).eraseDups.filter (gateOpen s))
    (fun g s => openGate g (s.held.filter fun h => h.gate == g).length s) s

/-- The images that waited are read again, in the order in which they came (R416). -/
def retryImages (s : State) : State := each s.images loadImage { s with images := [] }

/-- The send engine and the auxiliary unit of a stack go on with what waited; the next command begins. -/
def spliceOn (k : Nat) (s : State) : State :=
  let s := auxOn k (sendOn k s)
  if (s.splice k).auxQueue.isEmpty || (s.splice k).auxRun.isSome then s else auxNext k 5 s

/-- What may go on once no answer is on its way: the limits of stacks in which errors were found, accesses at gates that
have opened, images, requests at the gateways, queue pairs, the PRIO_A buffer, splice packets, the units of the splice that waited. -/
def goOn (s : State) : State :=
  let s := requestsOn (retryImages (unpark (openGates (judge s))))
  let s := each s.eth.qps (fun x s => roceLoop x.1 (x.2.waiting.length + 1) s) s
  let s := if s.eth.ingress.isEmpty then s else roceDrain (s.eth.ingress.length + 1) s
  let s := if s.eth.ingressB.isEmpty then s else tmpDrain (s.eth.ingressB.length + 1) s
  each s.spl (fun r s => spliceOn r.1 s) (drainSplices s)

/-- Answers reach their issuers until none is left. (DEDUCED, log entry 58) -/
def settle : Nat → State → State
  | 0, s => s
  | fuel + 1, s => match s.answers with
    | (q, r) :: rest => settle fuel (complete q r { s with answers := rest })
    | [] =>
      let t := goOn s
      if t.answers.isEmpty then t else settle fuel t

/-- More steps than any command takes: a RoCE message has at most 2^19 pieces (R368). -/
def settleFuel : Nat := 0x100000

/-- The effect of a command and all that follows at once; with a stack that it retires ends what depends on
that stack (R279). -/
def conclude (f : State → State) (s : State) : State :=
  let t := settle settleFuel (f s)
  noteBusy s (endRetired ((retiredStacks t).filter fun k => !(retiredStacks s).contains k) t)

/-- The arrivals that have reached the knot table, in ascending core number; those of one core as they came (R188). -/
def knotArrivals : List KnotIn → List (Nat × Nat × Nat)
  | [] => []
  | .arrive c k gen :: r => insertArrival (c, k, gen) (knotArrivals r)
  | .cmd _ :: r => knotArrivals r
where
  /-- Before the first of a greater core, or of the same one. -/
  insertArrival (x : Nat × Nat × Nat) : List (Nat × Nat × Nat) → List (Nat × Nat × Nat)
    | [] => [x]
    | y :: r => if x.1 ≤ y.1 then x :: y :: r else y :: insertArrival x r

/-- The KNOT_CMDs that have reached the knot table, as they came. -/
def knotCommands (l : List KnotIn) : List Nat :=
  l.filterMap fun i => match i with
    | .cmd v => some v
    | .arrive _ _ _ => none

/-- The knot table takes what has reached it in the dike tick: arrivals in ascending core number, then KNOT_CMDs
(R188). -/
def takeKnots (s : State) : State :=
  let l := s.knotIn
  each (knotCommands l) knotCommand
    (each (knotArrivals l) (fun a s => arriveCore a.1 a.2.1 a.2.2 s) { s with knotIn := [] })

/-- The end of a dike tick at the knot table. -/
def knotTick (s : State) : State := if s.knotIn.isEmpty || !s.powered then s else conclude takeKnots s

/-- A command of the device: where the condition holds, its effect and all that follows at once. -/
def perform (ok : State → Bool) (f : State → State) (s : State) : Host.Outcome State Fault Refusal :=
  run ok (conclude f) s

/-- The same for a command with which words of core SRAM go wrong (R36): those that its reads do not meet wait for the
next read. (DESIGN CHOICE, log entry 10) -/
def performFinding (found : List BankFind) (ok : State → Bool) (f : State → State) (s : State) :
    Host.Outcome State Fault Refusal :=
  perform ok f { s with bankFinds := s.bankFinds ++ found }

end Sys2Proof.Machine
end

