-- ==== Sys2Proof/Machine/StewardRows.lean ====
section
/-! DEFINITION. The commands of the stewards and of the engine ports (R168 to R178, R181, R201, R227). -/

namespace Sys2Proof.Machine

/-- A command of one outcome type. -/
abbrev Out := Host.Outcome State Fault Refusal

/-- Is the device in service, and c one of its cores? -/
def coreLive (s : State) (c : Nat) : Bool := s.live && decide (c < 10240)

/-- STEWARD_LAUNCH (R173): IDLE, bollard 0 full. -/
def execStewardLaunch (c : Nat) (s : State) : Out := perform (launchDue · c) (launch c) s

/-- STEWARD_INSTRUCTION (R168): the instruction at the pc, where it has no row of its own; a fetch that fails
or that another home must answer. -/
def execStewardInstruction (c : Nat) (found : List BankFind) (s : State) : Out :=
  performFinding found (stwRunnable · c) (stwInstr c .plain) s

/-- STEWARD_LOAD (R169). -/
def execStewardLoad (c : Nat) (found : List BankFind) (s : State) : Out :=
  performFinding found (stwRunnable · c) (stwInstr c .load) s

/-- STEWARD_STORE (R169). -/
def execStewardStore (c : Nat) (s : State) : Out := perform (stwRunnable · c) (stwInstr c .store) s

/-- STEWARD_AMO (R169). -/
def execStewardAmo (c : Nat) (found : List BankFind) (s : State) : Out :=
  performFinding found (stwRunnable · c) (stwInstr c .amo) s

/-- LR (R169, R181). -/
def execLr (c : Nat) (found : List BankFind) (s : State) : Out :=
  performFinding found (stwRunnable · c) (stwInstr c .lr) s

/-- SC (R169). -/
def execSc (c : Nat) (s : State) : Out := perform (stwRunnable · c) (stwInstr c .sc) s

/-- FENCE_I (R168). -/
def execFenceI (c : Nat) (s : State) : Out := perform (stwRunnable · c) (stwInstr c .fenceI) s

/-- WRS_NTO (R181). -/
def execWrsNto (c : Nat) (s : State) : Out := perform (stwRunnable · c) (stwInstr c .wrsNto) s

/-- WRS_STO (R181). -/
def execWrsSto (c : Nat) (s : State) : Out := perform (stwRunnable · c) (stwInstr c .wrsSto) s

/-- WRS_WAKE (R181): the monitor has fired, or an enabled interrupt is pending. -/
def execWrsWake (c : Nat) (s : State) : Out := perform (wrsWakeDue · c) (wrsEnd c) s

/-- WRS_LIMIT_EXPIRY (R181, R423). -/
def execWrsLimitExpiry (c : Nat) (s : State) : Out :=
  perform (fun s => s.live && decide (c < 10240) && wrsLimitDue s c) (wrsLimit c) s

/-- STEWARD_INTERRUPT (R172). -/
def execStewardInterrupt (c : Nat) (s : State) : Out :=
  perform (fun s => stwRunnable s c && (interruptDue s c).isSome) (fun s => match interruptDue s c with
    | some i => trap c i true 0 s
    | none => s) s

/-- SDTIMECMP_MATCH (R171, R423). -/
def execSdtimecmpMatch (c : Nat) (s : State) : Out :=
  perform (fun s => s.live && decide (c < 10240) && decide ((s.core c).stw.csrVal 0x7C0 ≤ s.now)) (timerMatch c) s

/-- MOVE_TO_IDLE (R174): CORE_STW_CTL written with CMD 1. -/
def execMoveToIdle (who : Issuer) (c : Nat) (s : State) : Out :=
  perform (coreLive · c) (writeReg who (.core c) 0x110 1) s

/-- CORE_STW_MSIP (R172): the register is written. -/
def execCoreStwMsip (who : Issuer) (c : Nat) (v : Word) (s : State) : Out :=
  perform (coreLive · c) (writeReg who (.core c) 0x118 v.toNat) s

/-- The store that pushes a record into port p: 8 B to the last word of the record, or 4 B to its high half. -/
def pushAccess (who : Issuer) (c port width : Nat) (v : Word) (s : State) : State :=
  let off := 8 * (recordWords port - 1) + (if width = 4 then 4 else 0)
  submit ⟨who, pageBase (.core c) + portShadow port off, .none, 0xFFF⟩ (.store (leBytes width v.toNat)) s

/-- PUSH (R177). -/
def execPush (who : Issuer) (c port width : Nat) (v : Word) (s : State) : Out :=
  perform (fun s => coreLive s c && decide (port < 3) && (width == 4 || width == 8)) (pushAccess who c port width v) s

/-- PUSH_STALL_RELEASE (R177). -/
def execPushStallRelease (c : Nat) (s : State) : Out :=
  perform (fun s => s.awake c && (stallDue s c).isSome) (stallRelease c) s

/-- RESTART_ARRAYS (R178). -/
def execRestartArrays (who : Issuer) (c : Nat) (s : State) : Out := perform (coreLive · c) (writePort who c 0 0x88 1) s

/-- RESTART_SIDE_PATH (R178). -/
def execRestartSidePath (who : Issuer) (c : Nat) (s : State) : Out := perform (coreLive · c) (writePort who c 0 0x88 2) s

/-- RESTART (R178). -/
def execRestart (who : Issuer) (c : Nat) (s : State) : Out := perform (coreLive · c) (writePort who c 1 0x88 1) s

/-- STRAND_PORT_RESTART (R201). -/
def execStrandPortRestart (who : Issuer) (c : Nat) (s : State) : Out :=
  perform (coreLive · c) (writePort who c 2 0x88 1) s

/-- FLUSH (R178) of the matrix (0) or the vector port (1). -/
def execFlush (who : Issuer) (c port : Nat) (s : State) : Out :=
  perform (fun s => coreLive s c && decide (port < 2)) (writePort who c port 0x88 3) s

/-- STRAND_PORT_FLUSH (R201). -/
def execStrandPortFlush (who : Issuer) (c : Nat) (s : State) : Out :=
  perform (coreLive · c) (writePort who c 2 0x88 3) s

/-- STRAND_RESUME (R227). -/
def execStrandResume (who : Issuer) (c n : Nat) (s : State) : Out :=
  perform (fun s => coreLive s c && decide (n < 8)) (writePort who c 2 (0x120 + 0x40 * n) 1) s

/-- STRAND_CANCEL (R227). -/
def execStrandCancel (who : Issuer) (c n : Nat) (s : State) : Out :=
  perform (fun s => coreLive s c && decide (n < 8)) (writePort who c 2 (0x120 + 0x40 * n) 2) s

end Sys2Proof.Machine
end

