-- ==== Sys2Proof/Machine/EngineRows.lean ====
section
/-! DEFINITION. The commands of the matrix, vector and strand engines, the SFU and the coils (R72 to R96, R142
to R167, R198 to R233, R243, R249 to R257). -/

namespace Sys2Proof.Machine

/-! ## Matrix engine -/

/-- MATRIX_RECORD_STAGE (R87, R90). -/
def execMatrixRecordStage (c : Nat) (s : State) : Out :=
  perform (fun s => s.awake c && mxStageDue s c) (mxStage c) s

/-- MATRIX_RECORD_START (R87, R89). -/
def execMatrixRecordStart (c : Nat) (side : Bool) (s : State) : Out :=
  perform (fun s => s.awake c && mxStartDue s c side) (mxStart c side) s

/-- TILE_SET_FILL (R73). -/
def execTileSetFill (c : Nat) (finds : List SramFind) (s : State) : Out :=
  performFinding (finds.map (findAt c)) (fun s => s.awake c && fillDue s c) (fillTiles c) s

/-- SWAP (R73): the tile set enters the arrays and its passes run. (DEDUCED, log entry 26) -/
def execSwap (c : Nat) (finds : List SramFind) (s : State) : Out :=
  performFinding (finds.map (findAt c)) (fun s => s.awake c && swapDue s c) (swapPass c) s

/-- DRAIN (R79). -/
def execDrain (c : Nat) (s : State) (finds : List SramFind := []) : Out :=
  performFinding (finds.map (findAt c)) (fun s => s.awake c && drainDue s c) (drainBlock c) s

/-- SIDE_LIST_WORK (R84). -/
def execSideListWork (c : Nat) (s : State) (finds : List SramFind := []) : Out :=
  performFinding (finds.map (findAt c)) (fun s => s.awake c && !(sideWork (s.core c).arr).isEmpty) (sideListWork c) s

/-- SIDE_RECORD (R86): the governor withholds it where its duty is 0. -/
def execSideRecord (c : Nat) (finds : List SramFind) (s : State) : Out :=
  performFinding (finds.map (findAt c)) (fun s => let x := (s.core c).sid
      s.awake c && x.run.isSome && !x.written && !x.halt && s.gov.mxDuty != 0) (sideRun c) s

/-- MATRIX_RECORD_COMPLETE (R89). -/
def execMatrixRecordComplete (c : Nat) (side : Bool) (s : State) : Out :=
  perform (fun s => s.awake c && mxCompleteDue s c side) (mxComplete c side) s

/-- Is a waiter's watchdog over (R183, R210, R251)? -/
def waiterOverdue (s : State) (c : Nat) : Waiter → Bool
  | .arrays => mxWaitOverdue s c false
  | .side => mxWaitOverdue s c true
  | .vector => vxWaitOverdue s c || vxHoldOverdue s c
  | .strand n => strandWaitOverdue s c n

/-- SYNC_WAIT_TIMEOUT of a waiter: raised once; it keeps waiting. -/
def waiterLate (c : Nat) (w : Waiter) (s : State) : State :=
  match w with
  | .arrays => mxTimeout c false s
  | .side => mxTimeout c true s
  | .vector => if vxWaitOverdue s c then vxLate c s else vxHoldLate c s
  | .strand n => lateWait c n s

/-- SYNC_WAIT_TIMEOUT (R183). The sluice raises it for a drained polder too (R423). -/
def execSyncWaitTimeout (c : Nat) (w : Waiter) (s : State) : Out :=
  perform (fun s => coreLive s c && waiterOverdue s c w) (waiterLate c w) s

/-! ## Vector engine and SFU -/

/-- CHAIN_RECORD_TAKE (R143). -/
def execChainRecordTake (c : Nat) (s : State) : Out := perform (fun s => s.awake c && vxTakeDue s c) (vxTake c) s

/-- CHAIN_RECORD_START (R143). -/
def execChainRecordStart (c : Nat) (s : State) : Out := perform (fun s => s.awake c && vxStartDue s c) (vxStart c) s

/-- CHAIN_ROW (R142). -/
def execChainRow (c : Nat) (finds : List SramFind) (parity : Option Nat) (s : State) : Out :=
  performFinding (finds.map (findAt c)) (fun s => s.awake c && vxRowDue s c false) (vxRow c parity) s

/-- CHAIN_RECORD_COMPLETE (R143). -/
def execChainRecordComplete (c : Nat) (s : State) : Out :=
  perform (fun s => s.awake c && (s.core c).vec.fin.isSome) (vxComplete c) s

/-- COIL_STREAM_RESUME (R251). -/
def execCoilStreamResume (c : Nat) (s : State) (finds : List SramFind := []) (parity : Option Nat := none) : Out :=
  performFinding (finds.map (findAt c)) (fun s => s.awake c && vxRowDue s c true) (vxRow c parity) s

/-- CORE_SFU_LOAD (R163): the register is written. -/
def execCoreSfuLoad (who : Issuer) (c : Nat) (v : Word) (s : State) : Out :=
  perform (coreLive · c) (writeReg who (.core c) 0x4A0 v.toNat) s

/-- SFU_LOAD_APPLY (R164): at a vector record boundary. -/
def execSfuLoadApply (c : Nat) (finds : List SramFind) (s : State) : Out :=
  performFinding (finds.map (findAt c)) (fun s => s.awake c && vxBoundary s c && !(s.core c).sfu.queue.isEmpty)
    (applyLoads c) s

/-! ## Strand engine -/

/-- The head strand record takes the lowest free context (R198). -/
def strandTake (c : Nat) (s : State) : State :=
  match freeContext s c, (s.core c).sx.coil with
  | some n, w :: _ => takeStrand c n w s
  | _, _ => s

/-- STRAND_RECORD_TAKE (R198). -/
def execStrandRecordTake (c : Nat) (finds : List SramFind) (s : State) : Out :=
  performFinding (finds.map (findAt c)) (fun s => s.awake c && (freeContext s c).isSome && !(s.core c).sx.coil.isEmpty)
    (strandTake c) s

/-- STRAND_START (R198). -/
def execStrandStart (c n : Nat) (s : State) : Out :=
  perform (fun s => s.awake c && startDue s c n) (startStrand c n) s

/-- STRAND_ISSUE (R200, R213). -/
def execStrandIssue (c : Nat) (finds : List SramFind) (s : State) : Out :=
  performFinding (finds.map (findAt c)) (fun s => s.awake c && !(issueOrder s c).isEmpty)
    (fun s => issueFirst c (issueOrder s c) s) s

/-- BRAID_TILE (R243): the braid is free and a context waits for it. -/
def execBraidTile (c : Nat) (s : State) : Out :=
  perform (fun s => s.awake c && (s.core c).braid.isNone && !(braidWaiters s c).isEmpty) (giveBraid c) s

/-- BLOCK_LANDS (R211). -/
def execBlockLands (c n : Nat) (s : State) : Out :=
  perform (fun s => s.awake c && blockLanded s c n) (landBlock c n) s

/-- RELEASE_OBSERVED (R211): a strand with a release word that has started. -/
def execReleaseObserved (c n : Nat) (s : State) : Out :=
  perform (fun s => let k := s.ctx c n
      s.awake c && k.started && k.srec.relEn && (k.state == 2 || k.state == 3 || k.state == 4)) (observeRelease c n) s

/-- Has every block of a running strand landed? -/
def strandFinished (s : State) (c n : Nat) : Bool :=
  let k := s.ctx c n
  k.state == 2 && k.started && k.landed == k.srec.nb && k.jobs.isEmpty

/-- STRAND_COMPLETE (R199). -/
def execStrandComplete (c n : Nat) (s : State) : Out :=
  perform (fun s => s.awake c && strandFinished s c n) (completeStrand c n) s

/-- The stall interval has passed without an acknowledgement: STRAND_STALL is raised once for it, and the next
interval begins where it ended (R231; DEDUCED, log entry 62). -/
def strandStall (c n : Nat) (s : State) : State :=
  let k := s.ctx c n
  strandEvent c n evStrandStall k.pos (s.setCtx c n { k with stallAt := k.stallAt + s.field (.core c) 0x4C0 63 32 })

/-- STRAND_STALL (R231). -/
def execStrandStall (c n : Nat) (s : State) : Out :=
  perform (fun s => s.awake c && strandStalled s c n) (strandStall c n) s

/-! ## Coils -/

/-- COIL_DATA_STORE (R253). -/
def execCoilDataStore (q : Req) (n : Nat) (v : Word) (s : State) : Out :=
  perform (fun s => s.live && decide (q.addr % 0x4000 = 0x510 + 0x20 * n)) (submit q (.store (leBytes 8 v.toNat))) s

/-- COIL_DATA_LOAD (R253). -/
def execCoilDataLoad (q : Req) (n : Nat) (s : State) : Out :=
  perform (fun s => s.live && decide (q.addr % 0x4000 = 0x510 + 0x20 * n)) (submit q (.load 8 false)) s

/-- Could the waiting access go on within CORE_BOLLARD_CFG.TIMEOUT? 0 sets it no bound (R468). -/
def coilInTime (s : State) (c : Nat) (w : CoilWait) : Bool :=
  s.bollardTimeout c == 0 || match w.met with
    | some m => decide (m < w.t0 + s.bollardTimeout c)
    | none => false

/-- Can the waiting coil access of core c complete? -/
def coilAccessDue (s : State) (c : Nat) : Bool :=
  match (s.core c).coilWait with
  | some w => coilReady s c w.n w.val.isSome && coilInTime s c w
  | none => false

/-- COIL_ACCESS_RESUME (R253). -/
def execCoilAccessResume (c : Nat) (s : State) : Out :=
  perform (fun s => s.awake c && coilAccessDue s c) (coilResume c) s

/-- Has the waiting coil access lasted CORE_BOLLARD_CFG.TIMEOUT without being able to go on? -/
def coilAccessOver (s : State) (c : Nat) : Bool :=
  match (s.core c).coilWait with
  | some w => s.past w.t0 (s.bollardTimeout c) && !coilInTime s c w
  | none => false

/-- COIL_TIMEOUT (R253). -/
def execCoilTimeout (c : Nat) (s : State) : Out :=
  perform (fun s => s.awake c && coilAccessOver s c) (coilExpire c) s

/-- A coil command: CORE_COIL_CMD_n is written. -/
def writeCoilCmd (who : Issuer) (c n cmd : Nat) (s : State) : State :=
  writeReg who (.core c) (0x518 + 0x20 * n) cmd s

/-- COMMIT (R253). -/
def execCommit (who : Issuer) (c n : Nat) (s : State) : Out :=
  perform (fun s => coreLive s c && decide (3 ≤ n) && decide (n ≤ 15)) (writeCoilCmd who c n 4) s

/-- BELAY (R249). -/
def execBelay (who : Issuer) (c n : Nat) (s : State) : Out :=
  perform (fun s => coreLive s c && decide (3 ≤ n) && decide (n ≤ 15)) (writeCoilCmd who c n 1) s

/-- REWIND (R249). -/
def execRewind (who : Issuer) (c n : Nat) (s : State) : Out :=
  perform (fun s => coreLive s c && decide (3 ≤ n) && decide (n ≤ 15)) (writeCoilCmd who c n 2) s

/-- RELEASE (R249). -/
def execRelease (who : Issuer) (c n : Nat) (s : State) : Out :=
  perform (fun s => coreLive s c && decide (3 ≤ n) && decide (n ≤ 15)) (writeCoilCmd who c n 3) s

/-- COIL_CFG_APPLY (R255): pending coil configurations apply at a vector record boundary. -/
def execCoilCfgApply (c : Nat) (s : State) : Out :=
  perform (fun s => s.awake c && vxBoundary s c) (boundary (.core c) .vector) s

/-- A saturation window of core c has ended: the count starts anew (R62). -/
def satRoll (c : Nat) (s : State) : State :=
  let w := s.field (.core c) 0x400 31 0
  if w ≠ 0 && (s.core c).satWindow ≠ s.now / w then satRestart c s else s

/-- SATURATION_WINDOW (R62): a window of SATURATION counts ends; the count and CALIB_DRIFT start anew. -/
def execSaturationWindow (c : Nat) (s : State) : Out :=
  perform (fun s => s.powered && decide (c < 10240)) (satRoll c) s

end Sys2Proof.Machine
end

