-- ==== Sys2Proof/Machine/MemRows.lean ====
section
/-! DEFINITION. The commands of presence, sync words, bollards and knots (R179 to R193, R229), and of the
stacks and their caches (R259 to R286). -/

namespace Sys2Proof.Machine

/-! ## Presence -/

/-- SET_PRESENT (R229): CHIP_PRES_CMD with OP 1. -/
def execSetPresent (who : Issuer) (v : Word) (s : State) : Out :=
  perform (fun s => s.live && wbits v 63 62 == 1) (writeReg who .pres 0x100 v.toNat) s

/-- SET_ABSENT (R229): CHIP_PRES_CMD with OP 2. -/
def execSetAbsent (who : Issuer) (v : Word) (s : State) : Out :=
  perform (fun s => s.live && wbits v 63 62 == 2) (writeReg who .pres 0x100 v.toNat) s

/-! ## Sync words -/

/-- SYNC_WORD_READ (R179). -/
def execSyncWordRead (q : Req) (s : State) : Out := perform State.live (submit q (.sync .read)) s

/-- SYNC_WORD_SET (R179). -/
def execSyncWordSet (q : Req) (v : Word) (s : State) : Out := perform State.live (submit q (.sync (.set v))) s

/-- SYNC_WORD_ADD (R179). -/
def execSyncWordAdd (q : Req) (v : Int) (s : State) : Out := perform State.live (submit q (.sync (.add v))) s

/-- SYNC_WORD_SWAP (R179). -/
def execSyncWordSwap (q : Req) (v : Word) (s : State) : Out := perform State.live (submit q (.sync (.swap v))) s

/-- SYNC_WORD_CMP_SWAP (R179). -/
def execSyncWordCmpSwap (q : Req) (cmp v : Word) (s : State) : Out :=
  perform State.live (submit q (.sync (.cas cmp v))) s

/-! ## Bollards -/

/-- PUT (R184). -/
def execPut (q : Req) (v : Word) (s : State) : Out := perform State.live (submit q (.put v)) s

/-- TAKE (R184). -/
def execTake (q : Req) (s : State) : Out := perform State.live (submit q .take) s

/-- Is the issuer the host? -/
def isHost : Issuer → Bool
  | .host _ => true
  | _ => false

/-- LAUNCH_PUT (R184): the host's. -/
def execLaunchPut (q : Req) (v : Word) (s : State) : Out :=
  perform (fun s => s.live && isHost q.who) (submit q (.launch v)) s

/-- The oldest operation that waits at core c's bollards beyond CORE_BOLLARD_CFG.TIMEOUT. -/
def bolExpired (s : State) (c : Nat) : Option BolWait :=
  (s.core c).bol.waits.find? fun w => s.past w.t0 (s.bollardTimeout c)

/-- BOLLARD_TIMEOUT: the operation ends unchanged; a polder that is not ACTIVE wakes first (R185, R423). -/
def bolExpire (c : Nat) (s : State) : State :=
  match bolExpired s c with
  | none => s
  | some w =>
    if (s.polder (polderOf c)).state ≠ 0 then markWake (polderOf c) 3 s
    else
      let r := s.core c
      answer w.req (.err evBollardTimeout)
        (bolTimeout c w.n w.req (s.setCore c { r with bol := { r.bol with waits := r.bol.waits.erase w } }))

/-- BOLLARD_TIMEOUT (R185). -/
def execBollardTimeout (c : Nat) (s : State) : Out :=
  perform (fun s => s.live && decide (c < 10240) && (bolExpired s c).isSome) (bolExpire c) s

/-! ## Knots -/

/-- CORE_KNOT_ARRIVE (R188): the register is written. -/
def execCoreKnotArrive (who : Issuer) (c : Nat) (v : Word) (s : State) : Out :=
  perform (coreLive · c) (writeReg who (.core c) 0x160 v.toNat) s

/-- KNOT_CANCEL (R191): KNOT_CMD with CMD 1 on chip slot k. -/
def execKnotCancel (who : Issuer) (k : Nat) (s : State) : Out :=
  perform (fun s => s.live && decide (k < 64)) (writeReg who .knot 0x108 (0x100 + k)) s

/-- HALL_CANCEL (R193): KNOT_CMD with CMD 1 on hall slot h. -/
def execHallCancel (who : Issuer) (h : Nat) (s : State) : Out :=
  perform (fun s => s.live && decide (h < 16)) (writeReg who .knot 0x108 (0x140 + h)) s

/-- DEVICE_ARRIVAL (R192): KNOT_CMD with CMD 2 on hall slot h. -/
def execDeviceArrival (who : Issuer) (h : Nat) (s : State) : Out :=
  perform (fun s => s.live && decide (h < 16)) (writeReg who .knot 0x108 (0x240 + h)) s

/-- KNOT_MASK_LOAD (R191): the register is written. -/
def execKnotMaskLoad (who : Issuer) (v : Word) (s : State) : Out :=
  perform State.live (writeReg who .knot 0x100 v.toNat) s

/-- KNOT_TIMEOUT of chip slot k: TIMED_OUT; the knot stays pending (R190). -/
def chipTimeout (k : Nat) (s : State) : State :=
  let t := s.chipSlot k
  knotEvent evKnotTimeout k 0 t.arrived.length (s.setChipSlot k { t with timedOut := true })

/-- CHIP_KNOT_WATCHDOG (R190). -/
def execChipKnotWatchdog (k : Nat) (s : State) : Out :=
  perform (fun s => s.live && chipOverdue s k) (chipTimeout k) s

/-- KNOT_TIMEOUT of hall slot h (R193). -/
def hallTimeout (h : Nat) (s : State) : State :=
  let t := s.hallSlot h
  knotEvent evKnotTimeout (64 + h) 0 t.count (s.setHallSlot h { t with timedOut := true })

/-- HALL_KNOT_WATCHDOG (R193). -/
def execHallKnotWatchdog (h : Nat) (s : State) : Out :=
  perform (fun s => s.live && hallOverdue s h) (hallTimeout h) s

/-! ## Requests at a stack -/

/-- A request at a stack in which errors appear: those that its own accesses do not meet wait for the next read of their
place. (DESIGN CHOICE, log entry 10) -/
def stackRequest (q : Req) (acc : Acc) (cls : MemClass) (finds : List HbmFind) (s : State) : State :=
  answerOpt q (serveMem q acc cls true (addUpsets (stackOf q.addr).1 finds s))

/-- Is it a request for 1 to 4,096 bytes of HBM? -/
def stackSized (q : Req) (n : Nat) : Bool := decide (q.addr < 0xC000000000) && decide (1 ≤ n) && decide (n ≤ 4096)

/-- HBM_READ (R265, R271 to R273). (DEDUCED, log entry 53) -/
def execHbmRead (q : Req) (len : Nat) (cls : MemClass) (finds : List HbmFind) (s : State) : Out :=
  perform (fun s => s.live && stackSized q len) (stackRequest q (.load len false) cls finds) s

/-- HBM_WRITE (R265, R271): no write carries LAST (R202). -/
def execHbmWrite (q : Req) (data : List Byte) (cls : MemClass) (finds : List HbmFind) (s : State) : Out :=
  perform (fun s => s.live && stackSized q data.length && cls != .last)
    (stackRequest q (.store data) cls finds) s

/-! ## Maintenance of a stack -/

/-- Retrain tokens in use (R275). -/
def tokensOut (s : State) : Nat := ((upto 12).filter fun k => (s.stack k).token).length

/-- Is a retrain of stack k admitted and without its token? -/
def awaitsToken (s : State) (k : Nat) : Bool :=
  !(s.stack k).token && match (s.stack k).maint with
    | some (.retrain, _) => true
    | _ => false

/-- RETRAIN_TOKEN_GRANT (R275): two tokens, in ascending stack index. -/
def execRetrainTokenGrant (k : Nat) (s : State) : Out :=
  perform (fun s => s.live && decide (tokensOut s < 2) && (upto 12).find? (awaitsToken s) == some k)
    (fun s => s.setStack k { s.stack k with token := true, attempts := 0 }) s

/-- The pseudo-channel that is held for a retrain. -/
def retrainingPc (t : Stack) : Option Nat :=
  match t.maint with
  | some (.retrain, pc) => if t.token then some pc else none
  | _ => none

/-- A retrain attempt ends: success is a seep, three failures a breach (R274). -/
def retrainAttempt (k : Nat) (ok : Bool) (s : State) : State :=
  let t := s.stack k
  match retrainingPc t with
  | none => s
  | some pc =>
    let n := t.attempts + 1
    if ok then
      retrainedOnReturn k pc (raiseEv (.stk k) evHbmRetrain (detUnit pc n 0) (s.setStack k (endMaint (seep t))))
    else if n < 3 then s.setStack k { t with attempts := n }
    else retrainedOnReturn k pc (breachChannel k pc (s.setStack k (endMaint t)))

/-- RETRAIN_ATTEMPT_END (R274). -/
def execRetrainAttemptEnd (k : Nat) (ok : Bool) (s : State) : Out :=
  perform (fun s => s.live && decide (k < 12) && (retrainingPc (s.stack k)).isSome) (retrainAttempt k ok) s

/-- The stack offset of block q of a pseudo-channel: the decode of R260 inverted. -/
def blockOffset (pc q : Nat) : Nat :=
  let h := bits q 6 2 ^^^ bits q 11 7 ^^^ bits q 16 12 ^^^ bits q 21 17
  256 * (32 * q + (pc ^^^ h))

/-- The pseudo-channel whose migration runs. -/
def migratingPc (t : Stack) : Option Nat :=
  match t.maint with
  | some (.migration, pc) => some pc
  | _ => none

/-- The maintenance engine reads a 256 B block in HBM: the errors there are met (R271). -/
def readBlock (k o : Nat) (s : State) : State :=
  let met := fun (f : HbmFind) => f.off / 256 == o / 256 && !errCached f.kind
  let t := s.stack k
  noteFinds k (t.upsets.filter met) (s.setStack k { t with upsets := t.upsets.filter fun f => !met f })

/-- The next block is copied, its errors handled as on any read; behind the last one p is retired (R276,
R278). -/
def migrateBlock (k : Nat) (finds : List HbmFind) (s : State) : State :=
  match migratingPc (s.stack k) with
  | none => s
  | some pc =>
    let s := readBlock k (blockOffset pc (s.stack k).copyPtr) (addUpsets k finds s)
    let t := { s.stack k with copyPtr := (s.stack k).copyPtr + 1 }
    if t.copyPtr < usableBlocks then s.setStack k t
    else
      let s := s.setStack k (endMaint { t with migrating := false })
      raiseEv (.stk k) evHbmPcRetired (detUnit pc 0 0) { s with sec := { s.sec with
        logMigrating := s.sec.logMigrating.filter fun r => r.1 != k, logPcs := s.sec.logPcs ++ [(k, pc)] } }

/-- MIGRATION_COPY (R276). -/
def execMigrationCopy (k : Nat) (finds : List HbmFind) (s : State) : Out :=
  perform (fun s => s.live && decide (k < 12) && (migratingPc (s.stack k)).isSome) (migrateBlock k finds) s

/-- CALIBRATION (R281): it is requested of the arbiter. (DESIGN CHOICE, log entry 54) -/
def execCalibration (k pc : Nat) (s : State) : Out :=
  perform (fun s => s.live && decide (k < 12) && (s.stack k).state != 2 && decide (pc < 32))
    (fun s => s.setStack k (requestMaint .calibration pc (s.stack k))) s

/-- Is a calibration running? -/
def calibrating (t : Stack) : Bool :=
  match t.maint with
  | some (.calibration, _) => true
  | _ => false

/-- CALIBRATION_COMPLETE (R281). -/
def execCalibrationComplete (k : Nat) (s : State) : Out :=
  perform (fun s => s.live && decide (k < 12) && calibrating (s.stack k))
    (fun s => s.setStack k (endMaint (s.stack k))) s

/-- Usable 256 B blocks of a stack. -/
def stackBlocks : Nat := 32 * usableBlocks

/-- Is the scrub of the stack the running activity? -/
def scrubbing (t : Stack) : Bool :=
  match t.maint with
  | some (.scrub, _) => true
  | _ => false

/-- Patrol scrub: it asks the arbiter, and while it runs reads the next block; spare locations in use are read
as the blocks that they hold (R281, R282). -/
def scrubBlock (k : Nat) (finds : List HbmFind) (s : State) : State :=
  let o := 256 * (s.stack k).scrubNext
  let pc := servingChannel (s.stack k) o
  let s := addUpsets k finds s
  let t := s.stack k
  let t := if scrubbing t then { t with maint := some (.scrub, pc) }
    else if t.waiting.any (fun w => w.1 == .scrub) then t else requestMaint .scrub pc t
  let s := s.setStack k t
  if !scrubbing t then s
  else
    let s := readBlock k o s
    let next := t.scrubNext + 1
    if next < stackBlocks then s.setStack k { s.stack k with scrubNext := next }
    else
      let u := { s.stack k with scrubNext := 0 }
      s.setStack k (if scrubbing u then endMaint u else { u with waiting := u.waiting.filter (·.1 != .scrub) })

/-- SCRUB (R282). -/
def execScrub (k : Nat) (finds : List HbmFind) (s : State) : Out :=
  perform (fun s => s.live && decide (k < 12) && (s.stack k).state != 2 && s.field (.stk k) 0x128 15 0 != 0)
    (scrubBlock k finds) s

/-- REFRESH_INTERVAL (R263, R286, R362): pending writes of the STK, MSC and SPL pages apply. -/
def execRefreshInterval (k : Nat) (s : State) : Out :=
  perform (fun s => s.live && decide (k < 12))
    (fun s => boundary (.spl k) .page (boundary (.msc k) .page (boundary (.stk k) .page s))) s

/-- HBM_ERROR_WINDOW (R273): with a new window the counts start anew. -/
def execHbmErrorWindow (k : Nat) (s : State) : Out :=
  perform (fun s => s.live && decide (k < 12)) (rollWindow k) s

/-! ## Cache commands -/

/-- MSC_WRITE_BACK (R269): MSC_CMD with CMD 1. -/
def execMscWriteBack (who : Issuer) (k : Nat) (s : State) : Out :=
  perform (fun s => s.live && decide (k < 12)) (writeReg who (.msc k) 0x108 1) s

/-- MSC_WRITE_BACK_INVALIDATE (R269): MSC_CMD with CMD 2. -/
def execMscWriteBackInvalidate (who : Issuer) (k : Nat) (s : State) : Out :=
  perform (fun s => s.live && decide (k < 12)) (writeReg who (.msc k) 0x108 2) s

/-- Has the running cache command nothing left that waits for a held pseudo-channel (R264)? -/
def mscDue (s : State) (k : Nat) : Bool :=
  let t := s.stack k
  if t.mscCmd = 3 then !partFlushWaits s k else t.mscCmd != 4 && mscStop t t.mscSet mscSets == mscSets

/-- The running cache command passes its last set (R269), or the partition has been written back (R267). -/
def mscDone (k : Nat) (s : State) : State :=
  let t := s.stack k
  let s := if t.mscCmd = 3 then partFlushed k s else mscPass k t.mscSet mscSets s
  s.setStack k { s.stack k with busy := false, mscCmd := 0, mscSet := 0 }

/-- MSC_CMD_DONE (R267, R269). -/
def execMscCmdDone (k : Nat) (s : State) : Out :=
  perform (fun s => s.live && decide (k < 12) && (s.stack k).busy && mscDue s k) (mscDone k) s

/-- The stack is in BRINGUP. -/
def bringupReached (k : Nat) (s : State) : State :=
  s.setStack k { s.stack k with state := 3, mscCmd := 0, busy := false }

/-- BRINGUP_WRITE_BACK_COMPLETE (R283): the cache has been written back and invalidated; STK_STATE.STATE becomes 3. -/
def execBringupWriteBackComplete (k : Nat) (s : State) : Out :=
  perform (fun s => s.live && decide (k < 12) && (s.stack k).mscCmd == 4
      && !((s.stack k).lines.any fun l => l.dirty && lineHeld (s.stack k) l.idx))
    (fun s => bringupReached k (flushAll k s)) s

/-! ## Repairs and the IEEE 1500 wrapper -/

/-- SOFT_REPAIR (R284): STK_REPAIR_CMD with OP 1. -/
def execSoftRepair (who : Issuer) (k : Nat) (v : Word) (s : State) : Out :=
  perform (fun s => s.live && decide (k < 12) && wbits v 63 62 == 1) (writeReg who (.stk k) 0x130 v.toNat) s

/-- HARD_REPAIR (R284): STK_REPAIR_CMD with OP 2. -/
def execHardRepair (who : Issuer) (k : Nat) (v : Word) (s : State) : Out :=
  perform (fun s => s.live && decide (k < 12) && wbits v 63 62 == 2) (writeReg who (.stk k) 0x130 v.toNat) s

/-- LANE_REMAP (R284): STK_REPAIR_CMD with OP 3. -/
def execLaneRemap (who : Issuer) (k : Nat) (v : Word) (s : State) : Out :=
  perform (fun s => s.live && decide (k < 12) && wbits v 63 62 == 3) (writeReg who (.stk k) 0x130 v.toNat) s

/-- Is a repair running? -/
def repairing (t : Stack) : Bool :=
  match t.maint with
  | some (.repair, _) => true
  | _ => false

/-- REPAIR_COMPLETE (R284). -/
def execRepairComplete (k : Nat) (ok : Bool) (s : State) : Out :=
  perform (fun s => s.live && decide (k < 12) && repairing (s.stack k)) (repairEnd k ok) s

/-- STK_1500_INSTR (R283): the register is written. -/
def execStk1500Instr (who : Issuer) (k : Nat) (v : Word) (s : State) : Out :=
  perform (fun s => s.live && decide (k < 12)) (writeReg who (.stk k) 0x140 v.toNat) s

/-- STK_1500_DATA_WRITE (R285): the register is written. -/
def execStk1500DataWrite (who : Issuer) (k : Nat) (v : Word) (s : State) : Out :=
  perform (fun s => s.live && decide (k < 12)) (writeReg who (.stk k) 0x148 v.toNat) s

/-- STK_1500_DATA_READ (R285): the bits shifted out of the wrapper. -/
def execStk1500DataRead (q : Req) (k : Nat) (s : State) : Out :=
  perform (fun s => s.live && decide (k < 12) && q.addr == pageBase (.stk k) + 0x148) (submit q (.load 8 false)) s

end Sys2Proof.Machine
end

