-- ==== Sys2Proof/Machine/FabricRows.lean ====
section
/-! DEFINITION. The commands of the fabric: links, packets, the requester's side, fan-out and mirrors (R287 to
R322). -/

namespace Sys2Proof.Machine

/-! ## Links -/

/-- Does the link carry flits: up, or management only? -/
def linkCarries (s : State) (port half : Nat) : Bool :=
  linkExists s port half && ((s.link port half).state == 3 || (s.link port half).state == 6)

/-- A flit with the findings of its codewords: a link that a breach retires takes nothing more. -/
def flitArrives (port half : Nat) (flit : List Byte) (corrected : Nat) (badLanes : List Nat) (s : State) : State :=
  let s := fecFindings port corrected (badLanes.filter (linkLanes s port half).contains) s
  if linkCarries s port half then receiveFlit port half flit s else s

/-- FLIT_RECEIVE (R291, R315). -/
def execFlitReceive (port half : Nat) (flit : List Byte) (corrected : Nat) (badLanes : List Nat) (s : State) : Out :=
  perform (fun s => s.live && linkCarries s port half) (flitArrives port half flit corrected badLanes) s

/-- LANE_LOCK_LOSS (R314): the link retrains. -/
def execLaneLockLoss (port lane : Nat) (s : State) : Out :=
  perform (fun s => s.live && linkCarries s port (laneLink s port lane)
      && (linkLanes s port (laneLink s port lane)).contains lane)
    (fun s => beginRetrain port (laneLink s port lane) s) s

/-- FPORT_RETRAIN (R314): FPORT_CMD with CMD 1. -/
def execFportRetrain (who : Issuer) (port half : Nat) (s : State) : Out :=
  perform (fun s => s.live && decide (port < 16) && decide (half < 2))
    (writeReg who (.fport port) 0x120 (1 + 4 * half)) s

/-- LINK_RETRAIN_ATTEMPT_END (R314, R315). -/
def execLinkRetrainAttemptEnd (port half : Nat) (failed : List Nat) (s : State) : Out :=
  perform (fun s => s.live && linkExists s port half && portEnabled s port
      && (s.link port half).state == 4) (retrainEnd port half failed) s

/-- FPORT_REINSTATE (R315): FPORT_CMD with CMD 2. -/
def execFportReinstate (who : Issuer) (port half : Nat) (s : State) : Out :=
  perform (fun s => s.live && decide (port < 16) && decide (half < 2))
    (writeReg who (.fport port) 0x120 (2 + 4 * half)) s

/-- FABRIC_ERROR_WINDOW (R315): with a new window the counts start anew. -/
def execFabricErrorWindow (port : Nat) (s : State) : Out :=
  perform (fun s => s.live && decide (port < 16)) (rollLanes port) s

/-- LINK_UP (R288, R316): an enabled link that was down or in training. -/
def execLinkUp (port half : Nat) (s : State) : Out :=
  perform (fun s => s.live && linkExists s port half && portEnabled s port
      && ((s.link port half).state == 1 || (s.link port half).state == 2)) (linkUp port half) s

/-- LINK_HELLO (R316). -/
def execLinkHello (port half : Nat) (p : Packet) (s : State) : Out :=
  perform (fun s => s.live && linkCarries s port half && (s.link port half).rx.contains p && pOpc p == 0x10
      && packetTurn s port p) (linkHello port half p) s

/-- A lane's credit stall is raised, once until a credit returns (R293). -/
def raiseStall (port half vl : Nat) (s : State) : State :=
  let l := s.link port half
  raiseEv (.fport port) evFabCreditStall (detUnit vl (halfCode s port half) 0)
    (s.setLink port half { l with stalled := put l.stalled vl true })

/-- FAB_CREDIT_STALL (R293). -/
def execFabCreditStall (port half vl : Nat) (s : State) : Out :=
  perform (fun s => s.live && creditStalled s port half vl) (raiseStall port half vl) s

/-! ## Packets -/

/-- A packet of an operation leaves the receive buffer in its turn: rejected where it is malformed, passed on
where it is for another device, else served, as the request that it is (R298, R304, R305). -/
def packetRow (opc : Nat → Bool) (port : Nat) (p : Packet) (serve : Req → State → State) (s : State)
    (found : List BankFind := []) : Out :=
  performFinding found (fun s => s.live && (rxHalf s port p).isSome && opc (pOpc p) && packetTurn s port p)
    (fun s =>
      let s := passGate port p s
      if malformed p then rejectPacket port p s
      else if inTransit s p then passOn port p s
      else serve (packetReq s port p) (takeReceived port p s)) s

/-- A checked operation that a packet asks for: ADDR_UNMAPPED outside the sync aliases (R304). -/
def servePacketSync (op : SyncOp) (q : Req) (s : State) : State :=
  if aliasAddr q.addr then submit q (.sync op) s else answerOpt q (refuse evAddrUnmapped q q.addr s)

/-- A bollard operation that a packet asks for: ADDR_UNMAPPED outside the bollard words (R304). -/
def servePacketBollard (acc : Acc) (q : Req) (s : State) : State :=
  if bollardAddr q.addr then submit q acc s else answerOpt q (refuse evAddrUnmapped q q.addr s)

/-- An access to memory that a READ or WRITE asks for, with its class (R204). -/
def servePacketMem (p : Packet) (acc : Acc) (q : Req) (s : State) : State :=
  answerOpt q (serveAny q acc (packetClass p) true s)

/-- READ (R304); a packet of a reserved operation goes the same way and is answered with FAB_FORMAT. -/
def execRead (port : Nat) (p : Packet) (found : List BankFind) (s : State) : Out :=
  packetRow (fun o => o == 0x01 || !opcKnown o) port p (servePacketMem p (.load (pLen p) false)) s found

/-- WRITE (R304). -/
def execWrite (port : Nat) (p : Packet) (s : State) : Out :=
  packetRow (· == 0x02) port p (servePacketMem p (.store p.data)) s

/-- SYNC_ADD (R304): OPERAND is signed. -/
def execSyncAdd (port : Nat) (p : Packet) (s : State) : Out :=
  packetRow (· == 0x05) port p (servePacketSync (.add (sext p.w3.toNat 64))) s

/-- SYNC_SUB (R304). -/
def execSyncSub (port : Nat) (p : Packet) (s : State) : Out :=
  packetRow (· == 0x06) port p (servePacketSync (.add (-(sext p.w3.toNat 64)))) s

/-- SYNC_SET (R304). -/
def execSyncSet (port : Nat) (p : Packet) (s : State) : Out :=
  packetRow (· == 0x07) port p (servePacketSync (.set p.w3)) s

/-- SYNC_READ (R304). -/
def execSyncRead (port : Nat) (p : Packet) (s : State) : Out :=
  packetRow (· == 0x08) port p (servePacketSync .read) s

/-- BOLLARD_PUT (R304). -/
def execBollardPut (port : Nat) (p : Packet) (s : State) : Out :=
  packetRow (· == 0x09) port p (servePacketBollard (.put p.w3)) s

/-- BOLLARD_TAKE (R304). -/
def execBollardTake (port : Nat) (p : Packet) (s : State) : Out :=
  packetRow (· == 0x0A) port p (servePacketBollard .take) s

/-- KNOT_ARRIVE (R192, R307). -/
def execKnotArrive (port : Nat) (p : Packet) (s : State) : Out :=
  packetRow (· == 0x0B) port p (fun _ => hallArrive port p) s

/-- KNOT_RELEASE (R192, R307). -/
def execKnotRelease (port : Nat) (p : Packet) (s : State) : Out :=
  packetRow (· == 0x0C) port p (fun _ => hallRelease p) s

/-- MIRROR_WRITE (R312): the copy is not mirrored again. -/
def execMirrorWrite (port : Nat) (p : Packet) (s : State) : Out :=
  packetRow (· == 0x0D) port p
    (fun q s => answerOpt q (serveMem q (.store p.data) .ordinary false s)) s

/-- A fan-out write: run on its tree, else answered with FAB_FORMAT on the port it came from (R309). -/
def serveFanOut (port : Nat) (p : Packet) (q : Req) (s : State) : State :=
  if treeTakes s port p then relayStart port p s
  else refuseOnPort port p (reqTdry q) evFabFormat (raiseFormat port p s)

/-- FAN_OUT_WRITE (R309). -/
def execFanOutWrite (port : Nat) (p : Packet) (s : State) : Out :=
  packetRow (· == 0x0E) port p (serveFanOut port p) s

/-- FAN_OUT_ANSWER (R309). -/
def execFanOutAnswer (id : Nat) (s : State) : Out := perform (fun s => s.live && relayDue s id) (relayAnswer id) s

/-- RESPONSE (R304, R318). -/
def execResponse (port : Nat) (p : Packet) (s : State) : Out :=
  packetRow (· == 0x1F) port p (fun _ => responseHere p) s

/-! ## Splice packets -/

/-- A splice packet at the splice unit: its credits return when it is performed, not while it waits (R340). -/
def serveSplicePacket (port : Nat) (p : Packet) (isMax : Bool) (s : State) : State :=
  let q := packetReq s port p
  match serveSplice (pAux p) ⟨q, isMax, p.data, some (port, p)⟩ s with
  | (some r, s) => answer q r (takeReceived port p s)
  | (none, s) => s

/-- A splice packet: malformed, in transit, or this device's. -/
def spliceRow (opc : Nat) (isMax : Bool) (port : Nat) (p : Packet) (s : State) : Out :=
  perform (fun s => s.live && (rxHalf s port p).isSome && pOpc p == opc && packetTurn s port p)
    (fun s =>
      let s := passGate port p s
      if malformed p then rejectPacket port p s
      else if inTransit s p then passOn port p s
      else serveSplicePacket port p isMax s) s

/-- SPLICE_ACC (R340). -/
def execSpliceAcc (port : Nat) (p : Packet) (s : State) : Out := spliceRow 0x03 false port p s

/-- SPLICE_MAX (R340). -/
def execSpliceMax (port : Nat) (p : Packet) (s : State) : Out := spliceRow 0x04 true port p s

/-! ## The FAB page -/

/-- FAB_TIMEOUT (R318). -/
def execFabTimeout (reqId : Nat) (s : State) : Out :=
  perform (fun s => s.live && requestOverdue s reqId) (requestTimeout reqId) s

/-- FAB_ROUTE_LOAD (R302): the register is written. -/
def execFabRouteLoad (who : Issuer) (v : Word) (s : State) : Out :=
  perform State.live (writeReg who .fab 0x108 v.toNat) s

/-- FAB_FANOUT_CMD (R310): the register is written. -/
def execFabFanoutCmd (who : Issuer) (v : Word) (s : State) : Out :=
  perform State.live (writeReg who .fab 0x118 v.toNat) s

/-- FANOUT_DESCRIPTOR (R310): the next descriptor starts, or a held one goes on. -/
def execFanoutDescriptor (s : State) : Out := perform (fun s => s.live && fanDue s) fanNext s

/-- FANOUT_COMPLETE (R310). -/
def execFanoutComplete (s : State) : Out := perform (fun s => s.live && fanComplete s) fanFinish s

/-- FAB_MIRROR_CMD (R313): the register is written. -/
def execFabMirrorCmd (who : Issuer) (v : Word) (s : State) : Out :=
  perform State.live (writeReg who .fab 0x408 v.toNat) s

end Sys2Proof.Machine
end

