-- ==== Sys2Proof/Machine/Governor.lean ====
section
/-! DEFINITION. The governor (R425 to R429). Energies are in units of 0.1 pJ, of which 10^7 make 1 µJ;
one watt over a window of 10 µs is 10 µJ. -/

namespace Sys2Proof.Machine

/-- 1 µJ in units of 0.1 pJ. -/
def microJoule : Nat := 10000000

/-- Does a cooling code name an assembly (R481)? -/
def coolNamed (code : Nat) : Bool := code == 6 || code == 5 || code == 3

/-- The cap of R425: the smaller of the cooling cap and HOST_CAP. -/
def baseCap (s : State) : Nat := min (coolCap s.gov.cool) (s.field .gov 0x100 31 16)

/-- The cap of a window and whether the thermal episode runs on, for the hottest reading (R429). -/
def windowCap (s : State) (hottest : Int) : Nat × Bool :=
  let limit : Int := s.field .gov 0x108 23 16
  let prev := if s.gov.begun then s.gov.capEff else baseCap s
  if hottest ≥ limit then (min (prev * 3 / 4) (baseCap s), true)
  else if s.gov.therm && hottest ≥ limit - 5 then (min prev (baseCap s), true)
  else (baseCap s, false)

/-- Sampling of COOL_ID (R425): code in force, counting code, windows it has held, event detail. -/
def sampleCool (g : Gov) (straps : Nat) : Gov × Option Nat :=
  if straps = g.cool then
    if coolNamed straps then ({ g with coolCount := 0, coolNew := straps }, none)
    else
      let c := if g.coolNew = straps then g.coolCount + 1 else 1
      ({ g with coolNew := straps, coolCount := min c 101 },
        if c = 100 then some (detUnit straps straps (coolCap straps)) else none)
  else
    let c := if g.coolNew = straps then g.coolCount + 1 else 1
    if c = 100 then
      let d := detUnit straps g.cool (coolCap straps)
      if coolCap straps ≤ coolCap g.cool then ({ g with cool := straps, coolNew := straps, coolCount := 101 }, some d)
      else ({ g with coolNew := straps, coolCount := 101 }, some d)
    else ({ g with coolNew := straps, coolCount := min c 101 }, none)

/-- The duties of a window (R426): matrix, vector, base and what was left before the classes. -/
def duties (s : State) (cap : Nat) (debt : Int) : Nat × Nat × Nat × Int :=
  let mxc := s.field .gov 0x108 47 32
  let vxc := s.field .gov 0x108 63 48
  let guard_ := s.field .gov 0x108 15 0
  let r := s.gov.last
  let budget : Int := ((cap : Int) - guard_) * 10 * microJoule
  let dmx : Int := r.aMx * mxc
  let dvx : Int := r.aVx * vxc
  let used : Int := r.issuedMx * mxc + r.issuedVx * vxc
  let base : Int := max ((r.eMeas * microJoule : Nat) - used) 0
  let left0 : Int := budget - base - debt
  let vx : Nat := if left0 ≥ dvx || dvx = 0 then 256 else (256 * max left0 0 / dvx).toNat
  let left1 : Int := if left0 ≥ dvx then left0 - dvx else if dvx = 0 then left0 else 0
  let mx : Nat := if left1 ≥ dmx || dmx = 0 then 256 else (256 * max left1 0 / dmx).toNat
  (mx, vx, base.toNat, left0)

/-- Strand duties (R428): windows starved, bulk duty and deadline duty. -/
def strandDuties (g : Gov) (mx vx : Nat) (left : Int) : Nat × Nat × Nat :=
  if mx = 0 ∧ vx = 0 ∧ left < 0 then
    let n := g.starved + 1
    (n, 0, if n > 2 then max 16 (g.dlDuty / 2) else g.dlDuty)
  else if left ≥ 0 then (0, 256, min 256 (g.dlDuty * 2))
  else (0, g.bulkDuty, g.dlDuty)

/-- One governor window (R425 to R429): the cap and duties of the window that begins, from the readings
of the window before last. -/
def governorStep (r : GovReadings) (s : State) : State :=
  let g := s.gov
  let spent : Int := r.eMeas
  let allowed : Int := g.capEff * 10
  let exceeded := g.begun = true ∧ spent > allowed
  let debt : Int := if !g.begun then g.debt
    else if exceeded then g.debt + (spent - allowed) * microJoule
    else max 0 (g.debt - (allowed - spent) * microJoule)
  let (cap, hot) := windowCap s r.hottest
  let (mx, vx, base, left) := duties s cap debt
  let (starved, bulk, dl) := strandDuties g mx vx left
  let full := g.mxDuty = 256 ∧ g.vxDuty = 256 ∧ g.bulkDuty = 256 ∧ g.dlDuty = 256
  let low := mx < 256 ∨ vx < 256 ∨ bulk < 256 ∨ dl < 256
  let (g2, cool) := sampleCool g r.straps
  let g3 : Gov := { g2 with
    capEff := cap, begun := true, mxDuty := mx, vxDuty := vx, bulkDuty := bulk, dlDuty := dl, starved := starved
    base := base / microJoule, meas := r.eMeas, debt := debt, therm := hot, last := r
    throttleWin := if low then (g.throttleWin + 1) % 2 ^ 64 else g.throttleWin
    window := s.now / 1000 + 1 }
  let s1 := { s with gov := g3, module := { s.module with
    straps := r.straps, thermAlertN := !hot && !s.module.boardAlert } }
  let s2 := if exceeded then raiseEv .gov evGovOverCap (detUnit 0 0 r.eMeas) s1 else s1
  let s3 := if hot && !g.therm then
    raiseEv .gov evGovTherm (detUnit r.hottest.toNat 0 cap) s2 else s2
  let s4 := if low ∧ full then raiseEv .gov evGovThrottle (detUnit mx vx cap) s3 else s3
  match cool with
  | some d => raiseEv .gov evGovCoolChange d s4
  | none => s4

/-- GOVERNOR_WINDOW (R426): once in each window of 1,000 ticks; what pends on the GOV page applies first
(R395). -/
def execGovernorWindow (g : GovReadings) (s : State) : Host.Outcome State Fault Refusal :=
  run (fun s => s.powered && decide (s.gov.window ≤ s.now / 1000)) (fun s => governorStep g (applyAt .gov .page s)) s

end Sys2Proof.Machine
end

