-- ==== Sys2Proof/Machine/SpliceRows.lean ====
section
/-! DEFINITION. The commands of the splice units, the send engines and the auxiliary commands (R323 to R362). -/

namespace Sys2Proof.Machine

/-- SPL_TAG_OPEN (R328): the register is written. -/
def execSplTagOpen (who : Issuer) (k : Nat) (v : Word) (s : State) : Out :=
  perform (fun s => s.live && decide (k < 12)) (writeReg who (.spl k) 0x100 v.toNat) s

/-- Is a tag in this state and phase, and nothing that it works on waiting for a held pseudo-channel? -/
def tagIn (s : State) (k tag state phase : Nat) : Bool :=
  s.live && decide (k < 12) && match findTag s k tag with
    | some t => t.state == state && t.phase == phase && (phase == 1 || !tagHeld s k t)
    | none => false

/-- ZEROING_COMPLETE (R331). -/
def execZeroingComplete (k tag : Nat) (s : State) : Out := perform (fun s => tagIn s k tag 1 0) (zeroingDone k tag) s

/-- VERDICT (R345). -/
def execVerdict (k tag : Nat) (s : State) : Out := perform (fun s => tagIn s k tag 3 0) (verdict k tag) s

/-- READ_OUT_COMPLETE (R345): every write of the read-out is acknowledged. -/
def execReadOutComplete (k tag : Nat) (s : State) : Out :=
  perform (fun s => tagIn s k tag 3 1 && !s.owes (· == .tag k tag)) (readOutDone k tag) s

/-- SPLICE_ABORT (R344): SPL_TAG_CMD with CMD 1. -/
def execSpliceAbort (who : Issuer) (k : Nat) (v : Word) (s : State) : Out :=
  perform (fun s => s.live && decide (k < 12) && wbits v 17 16 == 1) (writeReg who (.spl k) 0x108 v.toNat) s

/-- SPLICE_TIMEOUT (R344). -/
def execSpliceTimeout (k tag : Nat) (s : State) : Out :=
  perform (fun s => s.live && decide (k < 12) && tagOverdue s k tag) (tagTimeout k tag) s

/-- SPL_SEND_CMD (R335): the register is written. -/
def execSplSendCmd (who : Issuer) (k : Nat) (v : Word) (s : State) : Out :=
  perform (fun s => s.live && decide (k < 12)) (writeReg who (.spl k) 0x138 v.toNat) s

/-- SEND_DESCRIPTOR (R337). -/
def execSendDescriptor (k : Nat) (s : State) : Out :=
  perform (fun s => s.live && decide (k < 12) && (s.splice k).send.isNone && !(s.splice k).sends.isEmpty)
    (sendNext k) s

/-- SEND_COMPLETE (R338). -/
def execSendComplete (k : Nat) (s : State) : Out :=
  perform (fun s => s.live && decide (k < 12) && sendDue s k) (sendComplete k) s

/-- OP of the auxiliary descriptor that a value of SPL_AUX_CMD names (R360). -/
def auxOp (s : State) (v : Word) : Nat := bits (s.peekWord (wbits v 39 0)) 3 0

/-- SKETCH (R349): SPL_AUX_CMD written with a descriptor of OP 1. -/
def execSketch (who : Issuer) (k : Nat) (v : Word) (s : State) : Out :=
  perform (fun s => s.live && decide (k < 12) && auxOp s v == 1) (writeReg who (.spl k) 0x148 v.toNat) s

/-- MASK_EXPAND (R353): SPL_AUX_CMD written with a descriptor of OP 2. -/
def execMaskExpand (who : Issuer) (k : Nat) (v : Word) (s : State) : Out :=
  perform (fun s => s.live && decide (k < 12) && auxOp s v == 2) (writeReg who (.spl k) 0x148 v.toNat) s

/-- Has the running auxiliary command written all its output, and been answered? -/
def auxDue (s : State) (k : Nat) : Bool :=
  match (s.splice k).auxRun with
  | some x => x.next.isNone && !s.owes (· == .aux k)
  | none => false

/-- AUX_COMMAND_COMPLETE (R360): every write of the command is acknowledged. -/
def execAuxCommandComplete (k : Nat) (s : State) : Out :=
  perform (fun s => s.live && decide (k < 12) && auxDue s k) (auxComplete k) s

end Sys2Proof.Machine
end

