-- ==== Sys2Proof/Machine/HostRows.lean ====
section
/-! DEFINITION. The commands of the Ethernet host port: frames, RoCE, DCQCN and TMP (R363 to R385, R446 to R451). -/

namespace Sys2Proof.Machine

/-! ## Frames -/

/-- ARP (R364). -/
def execArp (f : Frame) (target senderIp senderMac : Nat) (s : State) : Out :=
  perform ethReady (arpAnswer f target senderIp senderMac) s

/-- NEIGHBOUR_SOLICITATION (R364, R442). -/
def execNeighbourSolicitation (f : Frame) (target : Nat) (s : State) : Out := perform ethReady (ndAnswer f target) s

/-- The destination address of PFC frames (IEEE 802.1Qbb). -/
def pfcMac : Nat := 0x0180C2000001

/-- A PFC frame: it carries no VLAN tag; only the device's two priorities pause (R364, R366). -/
def pfcArrives (f : Frame) (prios : List Nat) (pause : Bool) (s : State) : State :=
  if f.other = false ∧ f.len ≤ 9216 ∧ (f.dstMac = pfcMac ∨ f.dstMac = s.eth.mac) then
    pfc (prios.filter fun p => p == prioA s || p == prioB s) pause s
  else dropFrame s

/-- PFC_FRAME (R366). -/
def execPfcFrame (f : Frame) (prios : List Nat) (pause : Bool) (s : State) : Out :=
  perform ethReady (pfcArrives f prios pause) s

/-- ETH_LINK_DOWN (R367). -/
def execEthLinkDown (s : State) : Out := perform ethReady ethDown s

/-- Can the Ethernet link come up? -/
def ethCanRise (s : State) : Bool := (s.live || s.sec.state == 6) && bit (ethCfg s) 0 && s.eth.link != 3

/-- ETH_LINK_UP (R367). -/
def execEthLinkUp (s : State) : Out :=
  perform ethCanRise (fun s => raiseEv .eth evEthLinkUp 0 { s with eth := { s.eth with link := 3 } }) s

/-! ## RoCE -/

/-- RDMA_WRITE (R370). -/
def execRdmaWrite (f : Frame) (p : RocePkt) (s : State) : Out := perform ethReady (roceArrive .write f p) s

/-- RDMA_READ (R370). -/
def execRdmaRead (f : Frame) (p : RocePkt) (found : List BankFind) (s : State) : Out :=
  performFinding found ethReady (roceArrive .read f p) s

/-- ATOMIC_FETCH_ADD (R371). -/
def execAtomicFetchAdd (f : Frame) (p : RocePkt) (found : List BankFind) (s : State) : Out :=
  performFinding found ethReady (roceArrive .fetchAdd f p) s

/-- ATOMIC_CMP_SWAP (R371). -/
def execAtomicCmpSwap (f : Frame) (p : RocePkt) (found : List BankFind) (s : State) : Out :=
  performFinding found ethReady (roceArrive .cmpSwap f p) s

/-- RDMA_WRITE_WITH_IMMEDIATE (R368): refused with a NAK. -/
def execRdmaWriteWithImmediate (f : Frame) (p : RocePkt) (s : State) : Out := perform ethReady (roceArrive .imm f p) s

/-- SEND (R368): refused with a NAK. -/
def execSend (f : Frame) (p : RocePkt) (s : State) : Out := perform ethReady (roceArrive .send f p) s

/-- A CNP of a context cuts its rate; it has no place in the PSN order (R376). -/
def cnpArrives (f : Frame) (p : RocePkt) (s : State) : State :=
  match roceContext s f p with
  | (none, counted) => if counted then dropFrame s else s
  | (some i, _) => dcqcnCut i (congestion i f s)

/-- CNP (R376). -/
def execCnp (f : Frame) (p : RocePkt) (s : State) : Out := perform ethReady (cnpArrives f p) s

/-- DCQCN_TIMER (R376). -/
def execDcqcnTimer (qp : Nat) (s : State) : Out :=
  perform (fun s => decide (qp < 512) && dcqcnTimerDue s qp) (dcqcnTick qp) s

/-- DCQCN_BYTE_COUNTER (R376). -/
def execDcqcnByteCounter (qp : Nat) (s : State) : Out :=
  perform (fun s => decide (qp < 512) && dcqcnBytesDue s qp) (dcqcnBytes qp) s

/-! ## TMP -/

/-- REG_READ (R379). -/
def execRegRead (f : Frame) (m : List Byte) (s : State) : Out :=
  perform ethReady (tmpRow .regRead f m) s

/-- REG_WRITE (R379). -/
def execRegWrite (f : Frame) (m : List Byte) (s : State) : Out :=
  perform ethReady (tmpRow .regWrite f m) s

/-- QP_SET (R380). -/
def execQpSet (f : Frame) (m : List Byte) (x : QpArgs) (s : State) : Out :=
  perform ethReady (tmpRow (.qpSet x) f m) s

/-- QP_QUERY (R379). -/
def execQpQuery (f : Frame) (m : List Byte) (index : Nat) (s : State) : Out :=
  perform ethReady (tmpRow (.qpQuery index) f m) s

/-- REGION_SET (R379). -/
def execRegionSet (f : Frame) (m : List Byte) (x : RegionArgs) (s : State) : Out :=
  perform ethReady (tmpRow (.regionSet x) f m) s

/-- EVENT_DEST (R383). -/
def execEventDest (f : Frame) (m : List Byte) (x : DestArgs) (s : State) : Out :=
  perform ethReady (tmpRow (.eventDest x) f m) s

/-- FW_BEGIN (R446). -/
def execFwBegin (f : Frame) (m : List Byte) (s : State) : Out :=
  perform ethReady (tmpRow .fwBegin f m) s

/-- ERASE_COMPLETE (R446). -/
def execEraseComplete (s : State) : Out :=
  perform (fun s => (s.live || s.sec.state == 6) && s.sec.fwState == 1) eraseDone s

/-- FW_CHUNK (R446). -/
def execFwChunk (f : Frame) (m : List Byte) (s : State) : Out :=
  perform ethReady (tmpRow .fwChunk f m) s

/-- FW_COMMIT (R446). -/
def execFwCommit (f : Frame) (m : List Byte) (s : State) : Out :=
  perform ethReady (tmpRow .fwCommit f m) s

/-- FW_STATUS (R446). -/
def execFwStatus (f : Frame) (m : List Byte) (s : State) : Out :=
  perform ethReady (tmpRow .fwStatus f m) s

/-- ATTEST (R451): a nonce of 32 B. -/
def execAttest (f : Frame) (m : List Byte) (s : State) : Out :=
  perform ethReady (tmpRow .attest f m) s

/-- QUOTE_BUILT (R451). -/
def execQuoteBuilt (s : State) : Out := perform (fun s => s.live && s.sec.quote.isSome) quoteDone s

/-- IDENTITY (R379). -/
def execIdentity (f : Frame) (m : List Byte) (s : State) : Out :=
  perform ethReady (tmpRow .identity f m) s

/-- TMP_DENIAL_WINDOW (R382): in a new window the next denial raises TMP_DENIED again. -/
def execTmpDenialWindow (s : State) : Out :=
  perform (fun s => s.powered && s.eth.deniedWindow != denialWindow s)
    (fun s => { s with eth := { s.eth with deniedWindow := 0 } }) s

end Sys2Proof.Machine
end

