-- ==== Sys2Proof/Machine/RegRows.lean ====
section
/-! DEFINITION. The commands of the register pages (R387 to R406). -/

namespace Sys2Proof.Machine

/-- Does an address name a register or a hole of a register page or engine port? -/
def isRegister (s : State) (a : Nat) : Bool :=
  match homeOf s a with
  | .ctrl _ _ => true
  | .port _ _ _ => true
  | .chip _ _ => true
  | _ => false

/-- REGISTER_WRITE (R388 to R394): 4 or 8 B. -/
def execRegisterWrite (q : Req) (width : Nat) (v : Word) (s : State) : Out :=
  perform (fun s => s.live && isRegister s q.addr && (width == 4 || width == 8))
    (submit q (.store (leBytes width v.toNat))) s

/-- LOW_WORD_READ (R391). -/
def execLowWordRead (q : Req) (s : State) : Out :=
  perform (fun s => s.live && isRegister s q.addr && q.addr % 8 == 0) (submit q (.load 4 false)) s

/-- HIGH_WORD_READ (R391). -/
def execHighWordRead (q : Req) (s : State) : Out :=
  perform (fun s => s.live && isRegister s q.addr && q.addr % 8 == 4) (submit q (.load 4 false)) s

/-- LOW_WORD_WRITE (R392). -/
def execLowWordWrite (q : Req) (v : Word) (s : State) : Out :=
  perform (fun s => s.live && isRegister s q.addr && q.addr % 8 == 0) (submit q (.store (leBytes 4 v.toNat))) s

/-- HIGH_WORD_WRITE (R392). -/
def execHighWordWrite (q : Req) (v : Word) (s : State) : Out :=
  perform (fun s => s.live && isRegister s q.addr && q.addr % 8 == 4) (submit q (.store (leBytes 4 v.toNat))) s

/-- Is the device in service, and the page one that it has? -/
def pageLive (s : State) (p : PageId) : Bool :=
  s.live && match p with
    | .core c => decide (c < 10240)
    | q => chipPages.contains q

/-- HOLD (R397): APPLY_CTL written with HOLD as given. -/
def execHold (who : Issuer) (p : PageId) (v : Bool) (s : State) : Out :=
  perform (pageLive · p) (writeReg who p 0x018 (b2n v)) s

/-- APPLY (R397): APPLY_CTL written with APPLY, HOLD as it stands. -/
def execApply (who : Issuer) (p : PageId) (s : State) : Out :=
  perform (pageLive · p) (fun s => writeReg who p 0x018 (0x100 + b2n (s.page p).hold) s) s

/-- FORCE (R397): APPLY_CTL written with FORCE, HOLD as it stands. -/
def execForce (who : Issuer) (p : PageId) (s : State) : Out :=
  perform (pageLive · p) (fun s => writeReg who p 0x018 (0x200 + b2n (s.page p).hold) s) s

/-- Is a knot slot idle: chip slot k, hall slot h as 64 + h, or KNOT_WDOG, which waits for none (R191)? -/
def slotIdle (s : State) (k : Nat) : Bool :=
  if k < 64 then (s.chipSlot k).arrived.isEmpty
  else if k < 80 then !(s.hallSlot (k - 64)).pending
  else k == 80

/-- Can a boundary of a page arrive by itself (R395, R396)? The governor window, the refresh interval and the
start of a fan-out descriptor are the boundaries of other commands. -/
def boundaryArrives (s : State) (p : PageId) (b : Boundary) : Bool :=
  match p, b with
  | .gov, _ => false | .stk _, _ => false | .msc _, _ => false | .spl _, _ => false
  | .core c, .page => s.awake c && !coreRuns s c
  | .core c, .vector => s.awake c && vxBoundary s c
  | .knot, .slot k => s.live && slotIdle s k
  | .chip, .ident => s.live
  | q, .page => s.live && chipPages.contains q
  | _, _ => false

/-- APPLY_BOUNDARY (R394, R395). -/
def execApplyBoundary (p : PageId) (b : Boundary) (s : State) : Out :=
  perform (fun s => boundaryArrives s p b) (boundary p b) s

/-- CONFIGURATION_COMPARISON (R405, R406). -/
def execConfigurationComparison (p : PageId) (s : State) : Out :=
  perform (fun s => s.live && compareDue s p) (comparePage p) s

/-- EVT_ACK (R402): the register is written. -/
def execEvtAck (who : Issuer) (p : PageId) (v : Word) (s : State) : Out :=
  perform (pageLive · p) (writeReg who p 0x048 v.toNat) s

end Sys2Proof.Machine
end

