-- ==== Sys2Proof/Machine/PowerRows.lean ====
section
/-! DEFINITION. The commands of the sluice: drains, wakes and resets (R416 to R424, R430). -/

namespace Sys2Proof.Machine

/-! ## SLU_CMD and SLU_RESET -/

/-- SLU_DRAIN (R421): SLU_CMD with OP 1. -/
def execSluDrain (who : Issuer) (p : Nat) (s : State) : Out :=
  perform (fun s => s.live && decide (p < 256)) (writeReg who .slu 0x138 (0x100 + p)) s

/-- SLU_WAKE (R423): SLU_CMD with OP 2. -/
def execSluWake (who : Issuer) (p : Nat) (s : State) : Out :=
  perform (fun s => s.live && decide (p < 256)) (writeReg who .slu 0x138 (0x200 + p)) s

/-- SLU_RESET_CORE (R417): SLU_RESET with DOMAIN 1. -/
def execSluResetCore (who : Issuer) (target : Nat) (s : State) : Out :=
  perform (fun s => s.live && decide (target < 0x4000)) (writeReg who .slu 0x140 (0x10000 + target)) s

/-- SLU_RESET_POLDER (R417): SLU_RESET with DOMAIN 2. -/
def execSluResetPolder (who : Issuer) (target : Nat) (s : State) : Out :=
  perform (fun s => s.live && decide (target < 0x4000)) (writeReg who .slu 0x140 (0x20000 + target)) s

/-- SLU_RESET_FABRIC_PORT (R417): SLU_RESET with DOMAIN 3. -/
def execSluResetFabricPort (who : Issuer) (target : Nat) (s : State) : Out :=
  perform (fun s => s.live && decide (target < 0x4000)) (writeReg who .slu 0x140 (0x30000 + target)) s

/-- SLU_RESET_HOST_PORT (R417): SLU_RESET with DOMAIN 4. -/
def execSluResetHostPort (who : Issuer) (s : State) : Out := perform State.live (writeReg who .slu 0x140 0x40000) s

/-- SLU_RESET_CHIP (R417): SLU_RESET with DOMAIN 5. -/
def execSluResetChip (who : Issuer) (s : State) : Out := perform State.live (writeReg who .slu 0x140 0x50000) s

/-! ## Resets taking effect -/

/-- The deadlines that cores of a polder have registered with the sluice are forgotten with them. -/
def dropLeads (p : Nat) (gone : Nat → Bool) (s : State) : State :=
  let d := s.polder p
  s.setPolder p { d with leads := d.leads.filter fun l => !gone l.2.1 }

/-- A reset acts on its own side of each crossing only (R418). -/
def resetCrossings (gone target : Held → Bool) (s : State) : State :=
  let x := crossFates gone target s.held s
  { x.2 with held := x.1 }

/-- Does something on its way into the knot table come from a core that satisfies p? -/
def knotFrom (p : Nat → Bool) : KnotIn → Bool
  | .arrive c _ _ => p c
  | .cmd _ => false

/-- The reset of cores acts on their side of the crossing into the knot table only (R418). -/
def resetArrivals (p : Nat → Bool) (s : State) : State :=
  let x := knotFates (knotFrom p) s.knotIn s
  { x.2 with knotIn := x.1 }

/-- Does a held request come from core c? -/
def heldFrom (c : Nat) (h : Held) : Bool := ofCore c h.req.who

/-- Is a held request addressed to core c? -/
def heldFor (s : State) (c : Nat) (h : Held) : Bool := homeCore (homeOf s h.req.addr) == some c

/-- Does a held request come through the host port? -/
def heldFromHost (h : Held) : Bool :=
  match h.req.who with
  | .host _ | .tmp _ _ => true
  | _ => false

/-- CORE_RESET (R417). -/
def execCoreReset (c : Nat) (s : State) : Out :=
  perform (fun s => s.live && resetDue s 1 c)
    (fun s => resetCore c (resetCrossings (heldFrom c) (heldFor s c) (resetArrivals (· == c) (dropLeads (polderOf c) (· == c) (resetDone 1 c s))))) s

/-- POLDER_RESET (R417). -/
def execPolderReset (p : Nat) (s : State) : Out :=
  perform (fun s => s.live && resetDue s 2 p)
    (fun s => resetPolder p (resetCrossings (fun h => (polderCores p).any (heldFrom · h)) (fun h => h.gate == .polder p)
      (resetArrivals (fun c => polderOf c == p) (dropLeads p (fun _ => true) (resetDone 2 p s))))) s

/-- FABRIC_PORT_RESET (R417). -/
def execFabricPortReset (p : Nat) (s : State) : Out :=
  perform (fun s => s.live && resetDue s 3 p) (fun s => resetPort p (resetDone 3 p s)) s

/-- HOST_PORT_RESET (R417). -/
def execHostPortReset (s : State) : Out :=
  perform (fun s => s.live && resetDue s 4 0) (fun s => resetHost (resetCrossings heldFromHost (fun _ => false) (resetDone 4 0 s))) s

/-! ## Drains and wakes -/

/-- DRAIN_DELAY_EXPIRY (R421): the polder enters DRAINING. -/
def execDrainDelayExpiry (p : Nat) (s : State) : Out := perform (fun s => polderDrainDue s p) (beginDrain p) s

/-- DRAINING_COMPLETE (R420): nothing has reversed the drain (R422). -/
def execDrainingComplete (p : Nat) (s : State) : Out :=
  perform (fun s => s.live && (s.polder p).state == 1 && (s.polder p).wake.isNone) (finishDrain p) s

/-- The code of a wake cause (R430). -/
def causeCode : WakeCause → Nat
  | .bollard => 1 | .syncWord => 2 | .deadline => 3 | .traffic => 4 | .command => 5

/-- WAKE_EVENT (R423): the sluice takes the polder's wake event. -/
def execWakeEvent (p : Nat) (cause : WakeCause) (s : State) : Out :=
  perform (fun s => s.live && wakeDue s p (causeCode cause)) (beginWake p) s

/-- WAKE_LEAD_EXPIRY (R216): a registered deadline is reached. -/
def execWakeLeadExpiry (p : Nat) (s : State) : Out := perform (fun s => s.live && leadDue s p) (markWake p 3) s

/-- POWER_UP_GRANT (R424). -/
def execPowerUpGrant (s : State) : Out := perform (fun s => s.live && !(grantable s).isEmpty) grantWakes s

/-- The knot releases that waited at a polder's crossing reach its members (R189). -/
def deliverKnots (p : Nat) (s : State) : State :=
  let l := (s.polder p).knots
  each l (fun r s => each r.2.1 (seeRelease r.1 r.2.2) s) (s.setPolder p { s.polder p with knots := [] })

/-- WAKE_COMPLETE (R424): the polder is ACTIVE; what its crossings held is served. -/
def execWakeComplete (p : Nat) (s : State) : Out :=
  perform (fun s => s.live && (s.polder p).state == 3 && (s.polder p).granted)
    (fun s => deliverKnots p (finishWake p s)) s

end Sys2Proof.Machine
end

