-- ==== Sys2Proof/Machine/Dispatch.lean ====
section
/-! DEFINITION. The dispatch: one arm per command, each one direct call of its meaning. -/

namespace Sys2Proof.Machine

/-- The effect of a command on everything but the queue. -/
def exec (i : Instr) (s : State) : Host.Outcome State Fault Refusal :=
  match i with
  | .stewardLaunch c => Sys2Proof.Machine.execStewardLaunch c s
  | .stewardInstruction c found => Sys2Proof.Machine.execStewardInstruction c found s
  | .stewardLoad c found => Sys2Proof.Machine.execStewardLoad c found s
  | .stewardStore c => Sys2Proof.Machine.execStewardStore c s
  | .stewardAmo c found => Sys2Proof.Machine.execStewardAmo c found s
  | .lr c found => Sys2Proof.Machine.execLr c found s
  | .sc c => Sys2Proof.Machine.execSc c s
  | .fenceI c => Sys2Proof.Machine.execFenceI c s
  | .wrsNto c => Sys2Proof.Machine.execWrsNto c s
  | .wrsSto c => Sys2Proof.Machine.execWrsSto c s
  | .wrsWake c => Sys2Proof.Machine.execWrsWake c s
  | .wrsLimitExpiry c => Sys2Proof.Machine.execWrsLimitExpiry c s
  | .stewardInterrupt c => Sys2Proof.Machine.execStewardInterrupt c s
  | .sdtimecmpMatch c => Sys2Proof.Machine.execSdtimecmpMatch c s
  | .moveToIdle who c => Sys2Proof.Machine.execMoveToIdle who c s
  | .coreStwMsip who c v => Sys2Proof.Machine.execCoreStwMsip who c v s
  | .push who c port width v => Sys2Proof.Machine.execPush who c port width v s
  | .pushStallRelease c => Sys2Proof.Machine.execPushStallRelease c s
  | .restartArrays who c => Sys2Proof.Machine.execRestartArrays who c s
  | .restartSidePath who c => Sys2Proof.Machine.execRestartSidePath who c s
  | .restart who c => Sys2Proof.Machine.execRestart who c s
  | .strandPortRestart who c => Sys2Proof.Machine.execStrandPortRestart who c s
  | .flush who c port => Sys2Proof.Machine.execFlush who c port s
  | .strandPortFlush who c => Sys2Proof.Machine.execStrandPortFlush who c s
  | .matrixRecordStage c => Sys2Proof.Machine.execMatrixRecordStage c s
  | .matrixRecordStart c side => Sys2Proof.Machine.execMatrixRecordStart c side s
  | .tileSetFill c finds => Sys2Proof.Machine.execTileSetFill c finds s
  | .swap c finds => Sys2Proof.Machine.execSwap c finds s
  | .drain c finds => Sys2Proof.Machine.execDrain c s finds
  | .sideListWork c finds => Sys2Proof.Machine.execSideListWork c s finds
  | .sideRecord c finds => Sys2Proof.Machine.execSideRecord c finds s
  | .matrixRecordComplete c side => Sys2Proof.Machine.execMatrixRecordComplete c side s
  | .syncWaitTimeout c w => Sys2Proof.Machine.execSyncWaitTimeout c w s
  | .chainRecordTake c => Sys2Proof.Machine.execChainRecordTake c s
  | .chainRecordStart c => Sys2Proof.Machine.execChainRecordStart c s
  | .chainRow c finds parity => Sys2Proof.Machine.execChainRow c finds parity s
  | .chainRecordComplete c => Sys2Proof.Machine.execChainRecordComplete c s
  | .coilStreamResume c finds parity => Sys2Proof.Machine.execCoilStreamResume c s finds parity
  | .coreSfuLoad who c v => Sys2Proof.Machine.execCoreSfuLoad who c v s
  | .sfuLoadApply c finds => Sys2Proof.Machine.execSfuLoadApply c finds s
  | .strandRecordTake c finds => Sys2Proof.Machine.execStrandRecordTake c finds s
  | .strandStart c n => Sys2Proof.Machine.execStrandStart c n s
  | .strandIssue c finds => Sys2Proof.Machine.execStrandIssue c finds s
  | .braidTile c => Sys2Proof.Machine.execBraidTile c s
  | .blockLands c n => Sys2Proof.Machine.execBlockLands c n s
  | .releaseObserved c n => Sys2Proof.Machine.execReleaseObserved c n s
  | .strandComplete c n => Sys2Proof.Machine.execStrandComplete c n s
  | .strandResume who c n => Sys2Proof.Machine.execStrandResume who c n s
  | .strandCancel who c n => Sys2Proof.Machine.execStrandCancel who c n s
  | .strandStall c n => Sys2Proof.Machine.execStrandStall c n s
  | .setPresent who v => Sys2Proof.Machine.execSetPresent who v s
  | .setAbsent who v => Sys2Proof.Machine.execSetAbsent who v s
  | .syncWordRead q => Sys2Proof.Machine.execSyncWordRead q s
  | .syncWordSet q v => Sys2Proof.Machine.execSyncWordSet q v s
  | .syncWordAdd q v => Sys2Proof.Machine.execSyncWordAdd q v s
  | .syncWordSwap q v => Sys2Proof.Machine.execSyncWordSwap q v s
  | .syncWordCmpSwap q cmp v => Sys2Proof.Machine.execSyncWordCmpSwap q cmp v s
  | .put q v => Sys2Proof.Machine.execPut q v s
  | .take q => Sys2Proof.Machine.execTake q s
  | .launchPut q v => Sys2Proof.Machine.execLaunchPut q v s
  | .bollardTimeout c => Sys2Proof.Machine.execBollardTimeout c s
  | .coreKnotArrive who c v => Sys2Proof.Machine.execCoreKnotArrive who c v s
  | .knotCancel who k => Sys2Proof.Machine.execKnotCancel who k s
  | .hallCancel who h => Sys2Proof.Machine.execHallCancel who h s
  | .deviceArrival who h => Sys2Proof.Machine.execDeviceArrival who h s
  | .knotMaskLoad who v => Sys2Proof.Machine.execKnotMaskLoad who v s
  | .chipKnotWatchdog k => Sys2Proof.Machine.execChipKnotWatchdog k s
  | .hallKnotWatchdog h => Sys2Proof.Machine.execHallKnotWatchdog h s
  | .knotArrive port p => Sys2Proof.Machine.execKnotArrive port p s
  | .knotRelease port p => Sys2Proof.Machine.execKnotRelease port p s
  | .coilDataStore q n v => Sys2Proof.Machine.execCoilDataStore q n v s
  | .coilDataLoad q n => Sys2Proof.Machine.execCoilDataLoad q n s
  | .coilAccessResume c => Sys2Proof.Machine.execCoilAccessResume c s
  | .coilTimeout c => Sys2Proof.Machine.execCoilTimeout c s
  | .commit who c n => Sys2Proof.Machine.execCommit who c n s
  | .belay who c n => Sys2Proof.Machine.execBelay who c n s
  | .rewind who c n => Sys2Proof.Machine.execRewind who c n s
  | .release who c n => Sys2Proof.Machine.execRelease who c n s
  | .coilCfgApply c => Sys2Proof.Machine.execCoilCfgApply c s
  | .hbmRead q len cls finds => Sys2Proof.Machine.execHbmRead q len cls finds s
  | .hbmWrite q data cls finds => Sys2Proof.Machine.execHbmWrite q data cls finds s
  | .retrainTokenGrant k => Sys2Proof.Machine.execRetrainTokenGrant k s
  | .retrainAttemptEnd k ok => Sys2Proof.Machine.execRetrainAttemptEnd k ok s
  | .migrationCopy k finds => Sys2Proof.Machine.execMigrationCopy k finds s
  | .calibration k pc => Sys2Proof.Machine.execCalibration k pc s
  | .scrub k finds => Sys2Proof.Machine.execScrub k finds s
  | .refreshInterval k => Sys2Proof.Machine.execRefreshInterval k s
  | .hbmErrorWindow k => Sys2Proof.Machine.execHbmErrorWindow k s
  | .mscWriteBack who k => Sys2Proof.Machine.execMscWriteBack who k s
  | .mscWriteBackInvalidate who k => Sys2Proof.Machine.execMscWriteBackInvalidate who k s
  | .mscCmdDone k => Sys2Proof.Machine.execMscCmdDone k s
  | .softRepair who k v => Sys2Proof.Machine.execSoftRepair who k v s
  | .hardRepair who k v => Sys2Proof.Machine.execHardRepair who k v s
  | .laneRemap who k v => Sys2Proof.Machine.execLaneRemap who k v s
  | .repairComplete k ok => Sys2Proof.Machine.execRepairComplete k ok s
  | .stk1500Instr who k v => Sys2Proof.Machine.execStk1500Instr who k v s
  | .stk1500DataWrite who k v => Sys2Proof.Machine.execStk1500DataWrite who k v s
  | .stk1500DataRead q k => Sys2Proof.Machine.execStk1500DataRead q k s
  | .flitReceive port half flit corrected badLanes => Sys2Proof.Machine.execFlitReceive port half flit corrected badLanes s
  | .laneLockLoss port lane => Sys2Proof.Machine.execLaneLockLoss port lane s
  | .fportRetrain who port half => Sys2Proof.Machine.execFportRetrain who port half s
  | .linkRetrainAttemptEnd port half failed => Sys2Proof.Machine.execLinkRetrainAttemptEnd port half failed s
  | .fportReinstate who port half => Sys2Proof.Machine.execFportReinstate who port half s
  | .fabricErrorWindow port => Sys2Proof.Machine.execFabricErrorWindow port s
  | .linkUp port half => Sys2Proof.Machine.execLinkUp port half s
  | .linkHello port half p => Sys2Proof.Machine.execLinkHello port half p s
  | .read port p found => Sys2Proof.Machine.execRead port p found s
  | .write port p => Sys2Proof.Machine.execWrite port p s
  | .spliceAcc port p => Sys2Proof.Machine.execSpliceAcc port p s
  | .spliceMax port p => Sys2Proof.Machine.execSpliceMax port p s
  | .syncAdd port p => Sys2Proof.Machine.execSyncAdd port p s
  | .syncSub port p => Sys2Proof.Machine.execSyncSub port p s
  | .syncSet port p => Sys2Proof.Machine.execSyncSet port p s
  | .syncRead port p => Sys2Proof.Machine.execSyncRead port p s
  | .bollardPut port p => Sys2Proof.Machine.execBollardPut port p s
  | .bollardTake port p => Sys2Proof.Machine.execBollardTake port p s
  | .mirrorWrite port p => Sys2Proof.Machine.execMirrorWrite port p s
  | .fanOutWrite port p => Sys2Proof.Machine.execFanOutWrite port p s
  | .fanOutAnswer id => Sys2Proof.Machine.execFanOutAnswer id s
  | .response port p => Sys2Proof.Machine.execResponse port p s
  | .fabTimeout reqId => Sys2Proof.Machine.execFabTimeout reqId s
  | .fabCreditStall port half vl => Sys2Proof.Machine.execFabCreditStall port half vl s
  | .fabRouteLoad who v => Sys2Proof.Machine.execFabRouteLoad who v s
  | .fabFanoutCmd who v => Sys2Proof.Machine.execFabFanoutCmd who v s
  | .fanoutDescriptor => Sys2Proof.Machine.execFanoutDescriptor s
  | .fanoutComplete => Sys2Proof.Machine.execFanoutComplete s
  | .fabMirrorCmd who v => Sys2Proof.Machine.execFabMirrorCmd who v s
  | .splTagOpen who k v => Sys2Proof.Machine.execSplTagOpen who k v s
  | .zeroingComplete k tag => Sys2Proof.Machine.execZeroingComplete k tag s
  | .verdict k tag => Sys2Proof.Machine.execVerdict k tag s
  | .readOutComplete k tag => Sys2Proof.Machine.execReadOutComplete k tag s
  | .spliceAbort who k v => Sys2Proof.Machine.execSpliceAbort who k v s
  | .spliceTimeout k tag => Sys2Proof.Machine.execSpliceTimeout k tag s
  | .splSendCmd who k v => Sys2Proof.Machine.execSplSendCmd who k v s
  | .sendDescriptor k => Sys2Proof.Machine.execSendDescriptor k s
  | .sendComplete k => Sys2Proof.Machine.execSendComplete k s
  | .sketch who k v => Sys2Proof.Machine.execSketch who k v s
  | .maskExpand who k v => Sys2Proof.Machine.execMaskExpand who k v s
  | .arp f target senderIp senderMac => Sys2Proof.Machine.execArp f target senderIp senderMac s
  | .neighbourSolicitation f target => Sys2Proof.Machine.execNeighbourSolicitation f target s
  | .pfcFrame f prios pause => Sys2Proof.Machine.execPfcFrame f prios pause s
  | .rdmaWrite f p => Sys2Proof.Machine.execRdmaWrite f p s
  | .rdmaRead f p found => Sys2Proof.Machine.execRdmaRead f p found s
  | .atomicFetchAdd f p found => Sys2Proof.Machine.execAtomicFetchAdd f p found s
  | .atomicCmpSwap f p found => Sys2Proof.Machine.execAtomicCmpSwap f p found s
  | .rdmaWriteWithImmediate f p => Sys2Proof.Machine.execRdmaWriteWithImmediate f p s
  | .send f p => Sys2Proof.Machine.execSend f p s
  | .cnp f p => Sys2Proof.Machine.execCnp f p s
  | .dcqcnTimer qp => Sys2Proof.Machine.execDcqcnTimer qp s
  | .dcqcnByteCounter qp => Sys2Proof.Machine.execDcqcnByteCounter qp s
  | .ethLinkDown => Sys2Proof.Machine.execEthLinkDown s
  | .ethLinkUp => Sys2Proof.Machine.execEthLinkUp s
  | .regRead f m => Sys2Proof.Machine.execRegRead f m s
  | .regWrite f m => Sys2Proof.Machine.execRegWrite f m s
  | .qpSet f m x => Sys2Proof.Machine.execQpSet f m x s
  | .qpQuery f m index => Sys2Proof.Machine.execQpQuery f m index s
  | .regionSet f m x => Sys2Proof.Machine.execRegionSet f m x s
  | .eventDest f m x => Sys2Proof.Machine.execEventDest f m x s
  | .fwBegin f m => Sys2Proof.Machine.execFwBegin f m s
  | .eraseComplete => Sys2Proof.Machine.execEraseComplete s
  | .fwChunk f m => Sys2Proof.Machine.execFwChunk f m s
  | .fwCommit f m => Sys2Proof.Machine.execFwCommit f m s
  | .fwStatus f m => Sys2Proof.Machine.execFwStatus f m s
  | .activate => Sys2Proof.Machine.execActivate s
  | .attest f m => Sys2Proof.Machine.execAttest f m s
  | .quoteBuilt => Sys2Proof.Machine.execQuoteBuilt s
  | .identity f m => Sys2Proof.Machine.execIdentity f m s
  | .tmpDenialWindow => Sys2Proof.Machine.execTmpDenialWindow s
  | .eventDatagram => Sys2Proof.Machine.execEventDatagram s
  | .registerWrite q width v => Sys2Proof.Machine.execRegisterWrite q width v s
  | .lowWordRead q => Sys2Proof.Machine.execLowWordRead q s
  | .highWordRead q => Sys2Proof.Machine.execHighWordRead q s
  | .lowWordWrite q v => Sys2Proof.Machine.execLowWordWrite q v s
  | .highWordWrite q v => Sys2Proof.Machine.execHighWordWrite q v s
  | .hold who p v => Sys2Proof.Machine.execHold who p v s
  | .apply who p => Sys2Proof.Machine.execApply who p s
  | .force who p => Sys2Proof.Machine.execForce who p s
  | .applyBoundary p b => Sys2Proof.Machine.execApplyBoundary p b s
  | .configurationComparison p => Sys2Proof.Machine.execConfigurationComparison p s
  | .evtAck who p v => Sys2Proof.Machine.execEvtAck who p v s
  | .eventLog => Sys2Proof.Machine.execEventLog s
  | .pageLimitWindow => Sys2Proof.Machine.execPageLimitWindow s
  | .saturationWindow c => Sys2Proof.Machine.execSaturationWindow c s
  | .sluDrain who p => Sys2Proof.Machine.execSluDrain who p s
  | .sluWake who p => Sys2Proof.Machine.execSluWake who p s
  | .sluResetCore who target => Sys2Proof.Machine.execSluResetCore who target s
  | .sluResetPolder who target => Sys2Proof.Machine.execSluResetPolder who target s
  | .sluResetFabricPort who target => Sys2Proof.Machine.execSluResetFabricPort who target s
  | .sluResetHostPort who => Sys2Proof.Machine.execSluResetHostPort who s
  | .sluResetChip who => Sys2Proof.Machine.execSluResetChip who s
  | .coreReset c => Sys2Proof.Machine.execCoreReset c s
  | .polderReset p => Sys2Proof.Machine.execPolderReset p s
  | .fabricPortReset p => Sys2Proof.Machine.execFabricPortReset p s
  | .hostPortReset => Sys2Proof.Machine.execHostPortReset s
  | .chipReset => Sys2Proof.Machine.execChipReset s
  | .drainDelayExpiry p => Sys2Proof.Machine.execDrainDelayExpiry p s
  | .drainingComplete p => Sys2Proof.Machine.execDrainingComplete p s
  | .wakeEvent p cause => Sys2Proof.Machine.execWakeEvent p cause s
  | .wakeLeadExpiry p => Sys2Proof.Machine.execWakeLeadExpiry p s
  | .powerUpGrant => Sys2Proof.Machine.execPowerUpGrant s
  | .wakeComplete p => Sys2Proof.Machine.execWakeComplete p s
  | .governorWindow g => Sys2Proof.Machine.execGovernorWindow g s
  | .vinValid => Sys2Proof.Machine.execVinValid s
  | .vinOff => Sys2Proof.Machine.execVinOff s
  | .pwrEnRise => Sys2Proof.Machine.execPwrEnRise s
  | .pwrEnFall => Sys2Proof.Machine.execPwrEnFall s
  | .pwrGood => Sys2Proof.Machine.execPwrGood s
  | .pwrGoodLoss => Sys2Proof.Machine.execPwrGoodLoss s
  | .resetNAssert => Sys2Proof.Machine.execResetNAssert s
  | .warmStart => Sys2Proof.Machine.execWarmStart s
  | .thermalTrip group celsius => Sys2Proof.Machine.execThermalTrip group celsius s
  | .presentNChange mated => Sys2Proof.Machine.execPresentNChange mated s
  | .slotVerify readError => Sys2Proof.Machine.execSlotVerify readError s
  | .stackTrainingComplete failed => Sys2Proof.Machine.execStackTrainingComplete failed s
  | .initComplete => Sys2Proof.Machine.execInitComplete s
  | .startWatchdog => Sys2Proof.Machine.execStartWatchdog s
  | .burnSvn who v => Sys2Proof.Machine.execBurnSvn who v s
  | .clearLogEntry who v => Sys2Proof.Machine.execClearLogEntry who v s
  | .pmbusTelemetrySample t => Sys2Proof.Machine.execPmbusTelemetrySample t s
  | .clearFaults pec => Sys2Proof.Machine.execClearFaults pec s
  | .statusWord pec => Sys2Proof.Machine.execStatusWord pec s
  | .statusInput pec => Sys2Proof.Machine.execStatusInput pec s
  | .statusTemperature pec => Sys2Proof.Machine.execStatusTemperature pec s
  | .readVin pec => Sys2Proof.Machine.execReadVin pec s
  | .readIin pec => Sys2Proof.Machine.execReadIin pec s
  | .readTemperature1 pec => Sys2Proof.Machine.execReadTemperature1 pec s
  | .readTemperature2 pec => Sys2Proof.Machine.execReadTemperature2 pec s
  | .readTemperature3 pec => Sys2Proof.Machine.execReadTemperature3 pec s
  | .readPin pec => Sys2Proof.Machine.execReadPin pec s
  | .pmbusRevision pec => Sys2Proof.Machine.execPmbusRevision pec s
  | .mfrId pec => Sys2Proof.Machine.execMfrId pec s
  | .mfrModel pec => Sys2Proof.Machine.execMfrModel pec s
  | .mfrSerial pec => Sys2Proof.Machine.execMfrSerial pec s
  | .mfrCoolId pec => Sys2Proof.Machine.execMfrCoolId pec s
  | .pmbusInvalidCommand code pec => Sys2Proof.Machine.execPmbusInvalidCommand code pec s
  | .auxCommandComplete k => Sys2Proof.Machine.execAuxCommandComplete k s
  | .calibrationComplete k => Sys2Proof.Machine.execCalibrationComplete k s
  | .bringupWriteBackComplete k => Sys2Proof.Machine.execBringupWriteBackComplete k s

end Sys2Proof.Machine
end

