-- ==== Sys2Proof/Machine/Step.lean ====
section
/-! DEFINITION. The step: the command at the front of the queue, or the passing of one dike tick. -/

namespace Sys2Proof.Machine

/-- The passing of one dike tick (R413): the knot table takes what reached it in the tick (R188); the counter runs while
PWR_GOOD is asserted, the module's own time always (DESIGN CHOICE, log entry 3). -/
def idleTick (s : State) : State :=
  let t := linkTick (knotTick s)
  txOn { t with
    now := if s.sec.state = 0 then s.now else s.now + 1
    pending := s.pending
    module := { t.module with time := t.module.time + 1 } }

/-- One step: the first waiting command runs with the rest of the queue; on an empty queue a tick
passes. -/
def step (s : State) : Host.Outcome State Fault Refusal :=
  match s.pending with
  | [] => .next (idleTick s)
  | c :: rest => exec c { s with pending := rest }

/-- s with the command that a word spells in front of its queue; no word spells one. -/
def State.withFetchWord (s : State) (nbits w : Nat) : State :=
  match decodeTableWord nbits w with
  | none => s
  | some c => { s with pending := c :: s.pending }

end Sys2Proof.Machine
end

