-- ==== Sys2Proof/Safety.lean ====
section
/-! DEFINITION. The words in which statements about the machine are put: a state in which nothing is left to
be done, what every command does besides its own effect, and the states that hold no more than they may. -/

namespace Sys2Proof.Machine

/-- A splice unit has nothing to go on with: none of its tags is to be freed or served, its engines wait for nothing but
answers. -/
def Spl.settled (u : Spl) : Bool :=
  u.tags.all (fun t => (t.waiting.isEmpty || t.holds) && !(t.abort && t.state != 3))
    && (u.send.all fun x => x.todo.isEmpty) && (u.auxRun.all fun x => x.next.isNone)
    && (u.auxQueue.isEmpty || u.auxRun.isSome)

/-- Nothing that a command sets going is left to be done: no answer is on its way, what is held or parked waits at a
closed gate, no image waits, no error limit is to be judged, no request stands at a gateway, the ingress buffers are empty or
stopped, every queue pair serves or has nothing to serve, and every splice unit rests. (DESIGN CHOICE, log entry 6) -/
def State.settled (s : State) : Bool :=
  s.answers.isEmpty && s.held.all (fun h => !gateOpen s h.gate) && s.parked.all (fun a => s.dark a.1)
    && s.images.isEmpty && s.hbmStacks.all (fun x => x.2.due.isEmpty)
    && (s.fab.gateway.isEmpty && s.fab.repin.isEmpty)
    && (s.eth.ingress.isEmpty && (s.eth.ingressB.isEmpty || tmpBlocked s))
    && s.eth.qps.all (fun x => x.2.waiting.isEmpty || x.2.serving.isSome)
    && s.spl.all fun u => u.2.settled

/-- The state after a command whose effect on s is t: the sluice notes which polders are quiescent (R421), and the
dike time and the queue stand (R413). -/
def State.after (s t : State) : State := { noteBusy s t with now := s.now, pending := s.pending }

/-- Every stack that is retired in t was retired in s. -/
def retiresNone (s t : State) : Prop := ∀ k, k < 12 → (t.stack k).state = 2 → (s.stack k).state = 2

/-- A page that the device has: one of its chip pages, or that of one of its cores. -/
def realPage : PageId → Prop
  | .core c => c < 10240
  | p => p ∈ chipPages

/-- Nothing stands between an issuer and the n bytes at a local address that it stores to: it may reach the range, no
fence refuses it, no polder or pseudo-channel holds it, no hole lies there (R26, R28, R416, R419). -/
def mayStore (s : State) (who : Issuer) (a : Nat) (bs : List Byte) : Prop :=
  barrier s ⟨who, a, .none, 0xFFF⟩ (.store bs) = .clear

/-- The same for the write of a whole register of a page. -/
def mayWrite (s : State) (who : Issuer) (p : PageId) (off v : Nat) : Prop :=
  mayStore s who (pageBase p + off) (leBytes 8 v)

/-- t differs from s in core c and the sluice alone. -/
def onlyCore (c : Nat) (s t : State) : Prop :=
  (∀ d, d ≠ c → t.core d = s.core d) ∧ t = { s with cores := t.cores, slu := t.slu }

/-- Beside core c, t differs from s among the cores only in fired monitors; no monitor and no wait is new. -/
def watchersTold (s t : State) (c : Nat) : Prop :=
  (∀ d ≠ c, t.core d = { s.core d with stw := { (s.core d).stw with monitor := (t.core d).stw.monitor } })
    ∧ (s.mons = [] → t.mons = [] ∧ ∀ d ≠ c, t.core d = s.core d) ∧ (s.waits = [] → t.waits = [])

/-- From s to u chip slot k has been released at the members: its bit of CORE_KNOT_SEEN has toggled, that of
CORE_KNOT_CANCELLED tells of a cancel, and nothing else has changed but fired monitors. -/
def released (s u : State) (members : List Nat) (k : Nat) (cancel : Bool) : Prop :=
  (∀ d, u.core d = { s.core d with
      seen := (u.core d).seen, cancelled := (u.core d).cancelled
      stw := { (s.core d).stw with monitor := (u.core d).stw.monitor } })
    ∧ (∀ d ∈ members, (u.core d).seen = (s.core d).seen ^^^ 2 ^ k ∧ (u.core d).cancelled.testBit k = cancel)
    ∧ (∀ d, d ∉ members → (u.core d).seen = (s.core d).seen ∧ (u.core d).cancelled = (s.core d).cancelled)
    ∧ (s.mons = [] → u.mons = [] ∧ ∀ d, (u.core d).stw = (s.core d).stw)

/-- The steward of core c, whose polder has power, waits for the answer of an access that an instruction of len bytes makes
at va, with this cause for an access fault; it is not to stop, and the access is no LR of another device's word. -/
def awaits (s : State) (c len va cause : Nat) : Prop :=
  (s.core c).stw.wait = .access len va cause ∧ (s.core c).stw.stopping = false ∧ (s.core c).stw.lrAway = false
    ∧ s.dark (polderOf c) = false

/-- The steward of core c issues instructions, and that of bits w and len bytes at its pc is in its instruction cache,
which holds l when it has been read. -/
def fetches (s : State) (c : Nat) (found : List BankFind) (w len : Nat) (l : List (Nat × List Byte)) : Prop :=
  stwRunnable s c = true ∧ fetch c { s with bankFinds := found }
    = (.got w len, State.setStw { s with bankFinds := found } c { (s.core c).stw with icache := l })

/-- A steward's access of n bytes at va to its own core's SRAM, at offset off: aligned, permitted by PMP (kind 0 read, 1
write), of this device, inside the SRAM. -/
def inOwnSram (s : State) (c va n off kind : Nat) : Prop :=
  va % n = 0 ∧ pmpOk (s.core c).stw (s.core c).stw.dataUser va kind = true ∧ va < 2 ^ 52 ∧ remoteOf s va = none
    ∧ localOf va = sramAddr c off ∧ off + n ≤ 0x40000

/-- Nothing watches the n bytes at a plain local address: no monitor, wait or mirror region. -/
def unwatched (s : State) (a n : Nat) : Prop :=
  (∀ m ∈ s.mons, overlaps m.key 8 a n = false) ∧ (∀ w ∈ s.waits, overlaps w.key 8 a n = false)
    ∧ isMirrored s a n = false

/-- The tile (o, r) of a record as core c's SRAM holds it: its value plane, its code plane where the record is sparse,
and its side list where it has them (R70, R106, R54). -/
def storedTile (s : State) (c : Nat) (r : MRec) (p : Nat × Nat) : List Byte × List Byte × List Byte :=
  let rel := r.tileRel p.1 p.2
  (s.mem.read (sramAddr c (r.wOff + rel)) r.plane,
    if r.sparse ≠ 0 then s.mem.read (sramAddr c (r.codeOff + rel / 4)) (r.plane / 4) else [],
    if r.sideList then s.mem.read (sramAddr c (r.slOff + rel * 128 / r.plane)) 128 else [])

/-- The used side-list entries of a stored tile. -/
def sideUsed (r : MRec) (y : List Byte × List Byte × List Byte) : List (Nat × Nat) :=
  if r.sideList then (sideListOk y.2.2).getD [] else []

/-- A stored tile breaks no rule of its codes or its side list (R53, R54, R100, R103). -/
def tileGood (r : MRec) (y : List Byte × List Byte × List Byte) : Prop :=
  (r.sparse ≠ 0 → codesOk r.sparse y.2.1) ∧ (r.sideList → (sideListOk y.2.2).isSome)
    ∧ (r.escaped → escapesOk r y.1 y.2.1 (sideUsed r y))

/-- A completion signal of core c goes to the sync word at offset o of its own SRAM, which nothing watches, and leaves
it in its range. -/
def signalWord (s : State) (c hall add o : Nat) : Prop :=
  remoteOf s hall = none ∧ homeOf s (localOf hall) = .sync (sramAddr c o) ∧ o + 8 ≤ 0x40000
    ∧ unwatched s (sramAddr c o) 8 ∧ 0 ≤ sext (leNat (s.mem.read (sramAddr c o) 8)) 64 + add
    ∧ sext (leNat (s.mem.read (sramAddr c o) 8)) 64 + add < 2 ^ 63

/-- From s to t that word has risen by add; beside it only core c has changed. -/
def signalled (s t : State) (c add o : Nat) : Prop :=
  (∀ d, d ≠ c → t.core d = s.core d)
    ∧ t.mem = s.mem.write (sramAddr c o) (leBytes 8 (toBits (sext (leNat (s.mem.read (sramAddr c o) 8)) 64 + add) 64))
    ∧ t = { s with cores := t.cores, slu := t.slu, mem := t.mem, resv := t.resv
                   evt := { s.evt with sramSeep := t.evt.sramSeep } }

/-- The answer of a steward's access has reached x[rd]: 8 bytes, and the instruction, of len bytes, is complete. Beside the
steward only memory and the reservations may have changed. -/
def loaded (s t : State) (c rd len : Nat) (bs : List Byte) : Prop :=
  (∀ d, d ≠ c → t.core d = s.core d)
    ∧ t.core c = { s.core c with stw := { ((s.core c).stw.setX rd (loadValue 8 true bs)).retire len with wait := .nothing } }
    ∧ t = { s with cores := t.cores, slu := t.slu, mem := t.mem, resv := t.resv
                   evt := { s.evt with sramSeep := t.evt.sramSeep } }

/-- The memory-side cache of stack k agrees with HBM: no line twice, each of 128 bytes and inside the stack, and a line
that is not dirty as HBM holds it. -/
def cacheCoherent (s : State) (k : Nat) : Prop :=
  ((s.stack k).lines.map (·.idx)).Nodup ∧ ∀ l ∈ (s.stack k).lines,
    l.data.length = 128 ∧ l.idx * 128 + 128 ≤ 0x1000000000 ∧ (l.dirty = false → l.data = hbmLine s k l.idx)

/-- The HBM byte at every address but those in [a, a + n) reads the same in s and t, from the caches or not. -/
def hbmKept (s t : State) (a n : Nat) : Prop :=
  ∀ b, b < 0xC000000000 → overlaps a n b 1 = false → t.peek b 1 = s.peek b 1

/-- No activity of stack k's maintenance arbiter runs or waits. -/
def arbiterIdle (s : State) (k : Nat) : Prop := (s.stack k).maint = none ∧ (s.stack k).waiting = []

/-- A well-formed packet of an operation for this device stands in the receive buffer of a port, in its turn (R298, R304). -/
def arrived (s : State) (port : Nat) (p : Packet) (opc : Nat) : Prop :=
  (rxHalf s port p).isSome ∧ pOpc p = opc ∧ packetTurn s port p ∧ malformed p = false ∧ inTransit s p = false

/-- From s to t the packet has left the receive buffer and a response has left for its source, with its REQ_ID, a status,
an operand and data, as routing has it. -/
def responded (s t : State) (port : Nat) (p : Packet) (status operand : Nat) (data : List Byte) : Prop :=
  let v := takeReceived port p (passGate port p s)
  let u := sendResponse (pSrc p) (pReqId p) (pAddr p) status operand (pOrdered p) (packetDry s port p) data v
  t.sent = u.sent ∧ t.ports = u.ports ∧ t.fab = u.fab

/-- A RoCE packet is for context i, in its turn, and nothing stands before it: the port is up, the PRIO_A buffer empty, the
priority not paused, no frame of the context waits to leave and its rate allows one, the packet not marked CE (R366, R373,
R375 to R377, R380). -/
def roceTurn (s : State) (f : Frame) (p : RocePkt) (i : Nat) : Prop :=
  ethReady s = true ∧ s.eth.ingress = [] ∧ s.eth.outstanding < 4096 ∧ roceContext s f p = (some i, true) ∧ f.ce = false
    ∧ p.psn = (s.qp i).psn ∧ p.psn < 2 ^ 24 ∧ (s.qp i).serving = none ∧ (s.qp i).waiting = []
    ∧ (s.qp i).outstanding < (s.qp i).maxOut ∧ prioA s ∉ s.eth.paused ∧ (∀ x ∈ s.eth.txHeld, x.qpn ≠ qpn i)
    ∧ rateAllows s (qpn i) = true

/-- A well-formed TMP message with this request code is to be performed: it is for the device, allowed, neither answered nor
in work, and the answer's priority is not paused (R379, R381, R382, R366). -/
def tmpServed (s : State) (f : Frame) (m : List Byte) (code : Nat) : Prop :=
  ethReady s = true ∧ msgField m 3 1 = code ∧ ipTakes s f = true ∧ tmpAllowed s f = true
    ∧ tmpKept s f.srcIp f.srcPort (msgField m 4 4) = none ∧ tmpBusy s f.srcIp f.srcPort (msgField m 4 4) = false
    ∧ tmpHeaderOk s m = true ∧ prioB s ∉ s.eth.paused

/-- From s to t the response of a message has left, and is kept among the last 64 (R382). -/
def tmpReplied (s t : State) (f : Frame) (m : List Byte) (status index : Nat) (body : TmpPayload) : Prop :=
  t.sent = .tmp f.srcIp f.srcPort ⟨msgField m 3 1 + 0x80, msgField m 4 4, status, index, body⟩ :: s.sent
    ∧ t.eth.kept = ((f.srcIp, f.srcPort, msgField m 4 4,
      ⟨msgField m 3 1 + 0x80, msgField m 4 4, status, index, body⟩) :: s.eth.kept).take 64

/-- What every state of a run has: memory, warden memory and flash in their canonical form, the device in one of its states
(R433), a table of splice tags whose descriptors break no rule (R328), and TMP messages in work under numbers that have
been given out. -/
def State.inv (s : State) : Prop :=
  s.mem.wf = true ∧ s.wmem.wf = true ∧ s.flash.wf = true ∧ s.sec.state ≤ 6
    ∧ (∀ k, ∀ x ∈ (s.splice k).tags, tagDescBad k x = false) ∧ ∀ r ∈ s.eth.runs, r.id < s.eth.nextRun

end Sys2Proof.Machine
end

