-- ==== Sys2Proof/Certificates/Slice0/Obligations.lean ====
section
/-! DEFINITION. The statements about the model, from the spec's rules, by chapter. A clause of the form
`t = { s with x := t.x }` says that nothing but x has changed. -/

open Sys2Proof Sys2Proof.Machine

/-! ## The module (chapter 18) -/

/-- R480: every PMBus read is answered with the content its row of the table gives, least significant byte first and a block
with its byte count first, and changes nothing else. The bits of STATUS_WORD, and the case of the hexadecimal digits, are
the model's choice (log entry 34).
R480: CLEAR_FAULTS clears the latched status bits and releases the alert; a command that the module does not have
latches STATUS_CML and asserts the alert; and a command whose PEC fails latches STATUS_CML.PEC and does nothing else of its
own. The places of the bits are the model's choice (log entry 34).
Completion: under these conditions on the state and the operands alone, exec answers the next state described for
statusWord, statusInput, statusTemperature, readVin, readIin, readTemperature1, readTemperature2, readTemperature3,
readPin, pmbusRevision, mfrId, mfrModel, mfrSerial, mfrCoolId, clearFaults and pmbusInvalidCommand. -/
def Obligations.PmbusCommands : Prop :=
  (∀ (pec : Pec) (s : State), 1 ≤ s.module.power → pec ≠ .bad →
      ∀ r ∈ [(Instr.statusWord pec, leBytes 2 (statusWord s)),
          (Instr.statusInput pec, leBytes 1 s.module.stInput),
          (Instr.statusTemperature pec, leBytes 1 s.module.stTemp),
          (Instr.readVin pec, leBytes 2 s.module.tele.vin), (Instr.readIin pec, leBytes 2 s.module.tele.iin),
          (Instr.readTemperature1 pec, leBytes 2 s.module.tele.temp1),
          (Instr.readTemperature2 pec, leBytes 2 s.module.tele.temp2),
          (Instr.readTemperature3 pec, leBytes 2 s.module.tele.temp3),
          (Instr.readPin pec, leBytes 2 s.module.tele.pin), (Instr.pmbusRevision pec, [0x33#8]),
          (Instr.mfrId pec, [0x06#8, 0x54#8, 0x48#8, 0x4F#8, 0x44#8, 0x4F#8, 0x4D#8]),
          (Instr.mfrModel pec, [0x0A#8, 0x54#8, 0x48#8, 0x44#8, 0x2D#8, 0x44#8, 0x58#8, 0x31#8, 0x30#8, 0x2D#8, 0x41#8]),
          (Instr.mfrSerial pec, 0x10#8 :: (List.range 16).map fun i => hexDigit (s.sec.serial / 16 ^ (15 - i) % 16)),
          (Instr.mfrCoolId pec, leBytes 1 (s.module.straps + 16 * s.gov.cool + 128 *
            b2n (s.gov.coolNew != s.gov.cool && decide (0 < s.gov.coolCount) && decide (s.gov.coolCount < 100))))],
        exec r.1 s = .next { s with sent := .pmbus r.2 :: s.sent })
  ∧ ((∀ (pec : Pec) (s : State), 1 ≤ s.module.power → pec ≠ .bad →
      exec (.clearFaults pec) s = .next { s with module := { s.module with
        stInput := 0, stTemp := 0, stCml := 0, pmbAlertN := true } }
      ∧ ∀ code, exec (.pmbusInvalidCommand code pec) s = .next { s with module := { s.module with
        stCml := s.module.stCml ||| 0x80, pmbAlertN := false } })
    ∧ ∀ (code : Nat) (s : State), 1 ≤ s.module.power →
      ∀ c ∈ [Instr.clearFaults .bad, .statusWord .bad, .statusInput .bad, .statusTemperature .bad, .readVin .bad,
          .readIin .bad, .readTemperature1 .bad, .readTemperature2 .bad, .readTemperature3 .bad, .readPin .bad,
          .pmbusRevision .bad, .mfrId .bad, .mfrModel .bad, .mfrSerial .bad, .mfrCoolId .bad,
          .pmbusInvalidCommand code .bad],
        exec c s = .next { s with module := { s.module with stCml := s.module.stCml ||| 0x20, pmbAlertN := false } })

/-- R477, R479, R433: VIN that becomes valid brings the module to standby and its loss turns it off; PWR_EN powers it up
when it has been 0 for 500 ms and no sensor is near its trip; PWR_EN or VIN that falls, or PWR_GOOD that is lost, leads to
OFF; PRESENT_N is the level of its pin. Nothing but the module and the start state changes.
R482: a sensor at its group's trip threshold (110, 105 or 125 degrees) asserts THERM_TRIP_N, takes the device to OFF and
the module to standby; below it the reading is all that changes.
R480: a telemetry sample becomes what the READ_ commands answer; a status bit that it sets latches and asserts the
alert, and no latched bit is lost.
Completion: under these conditions on the state and the operands alone, exec answers the next state described for
vinValid, vinOff, pwrEnRise, pwrEnFall, pwrGoodLoss, presentNChange, thermalTrip and pmbusTelemetrySample. -/
def Obligations.ModulePowerAndSensors : Prop :=
  ((∀ s : State, s.module.vin = false → exec .vinValid s = .next { s with module := { s.module with
      vin := true, vinSince := s.module.time, power := 1 } })
    ∧ (∀ s : State, s.module.vin = true → ∃ t, exec .vinOff s = .next t ∧ t.sec = { s.sec with state := 0 }
      ∧ t.module.vin = false ∧ t.module.power = 0 ∧ t = { s with module := t.module, sec := t.sec })
    ∧ (∀ s : State, s.module.pwrEn = false → ∃ t, exec .pwrEnRise s = .next t ∧ t = { s with module := t.module }
      ∧ t.module.pwrEn = true ∧ (t.module.power = 2 ↔ s.module.power = 2 ∨ (s.module.vin = true
        ∧ s.module.enLowSince + 50000000 ≤ s.module.time
        ∧ nth 0 s.module.sensors 0 < 95 ∧ nth 0 s.module.sensors 1 < 90 ∧ nth 0 s.module.sensors 2 < 110)))
    ∧ (∀ s : State, s.module.pwrEn = true → ∃ t, exec .pwrEnFall s = .next t ∧ t.sec = { s.sec with state := 0 }
      ∧ t.module.pwrEn = false ∧ t.module.enLowSince = s.module.time ∧ t.module.tripN = true ∧ t.module.power ≤ 1
      ∧ t = { s with module := t.module, sec := t.sec })
    ∧ (∀ s : State, s.powered → exec .pwrGoodLoss s = .next { s with
      module := { s.module with power := min s.module.power 1 }, sec := { s.sec with state := 0 } })
    ∧ ∀ (m : Bool) (s : State), exec (.presentNChange m) s = .next { s with module := { s.module with mated := m } })
  ∧ (∀ (g : Nat) (x : Int) (s : State), g < 3 → 1 ≤ s.module.power → ∃ t, exec (.thermalTrip g x) s = .next t
      ∧ t.module.sensors = s.module.sensors.set g x
      ∧ (x < nth 0 [110, 105, 125] g → t = { s with module := { s.module with sensors := s.module.sensors.set g x } })
      ∧ (nth 0 [110, 105, 125] g ≤ x → t.module.tripN = false ∧ t.sec = { s.sec with state := 0 } ∧ t.module.power ≤ 1
        ∧ t = { s with module := t.module, sec := t.sec }))
  ∧ (∀ (x : Telemetry) (s : State), 1 ≤ s.module.power → ∃ t, exec (.pmbusTelemetrySample x) s = .next t
      ∧ t = { s with module := t.module } ∧ t.module.tele = x
      ∧ t.module.stInput = s.module.stInput ||| (sampleStatus (s.field .gov 0x108 23 16) x).1
      ∧ t.module.stTemp = s.module.stTemp ||| (sampleStatus (s.field .gov 0x108 23 16) x).2
      ∧ (t.module.pmbAlertN = false ↔ s.module.pmbAlertN = false ∨ sampleStatus (s.field .gov 0x108 23 16) x ≠ (0, 0)))

/-! ## Power, resets and starts (chapters 15 and 16) -/

/-- R434, R413, R417: when the module may power up, PWR_GOOD begins a cold start at tick 0: BOOT, every core, page, memory
and table at its reset value, flash, fuses, pins and what has been sent as before.
R417, R418, R434, R438, R478, R449: a chip reset, from RESET_N, from SLU_RESET or at an activation, puts the device into
BOOT: every block outside the dike domain and every chip page at its reset value, nobody waiting for the transfers at its
crossings, while memory, warden memory, flash, the dike time and what the host port keeps stand; RELOAD and WARM_ZERO are
sampled as applied, and an activation reloads. The start begins in that tick, unless RESET_N holds the device in reset. A
device in SAFE that activates begins a cold start.
R434, R437, R439: a start begins where the chip reset ends, warm unless a cold start was interrupted: its firmware from
warden memory unless RELOAD was sampled; the start watchdog, 800,000,000 ticks after its beginning, begins another of the
same kind with the slot that ran counted as failed.
Completion: under these conditions on the state and the operands alone, exec answers the next state described for
pwrGood, resetNAssert, chipReset, activate, warmStart and startWatchdog. -/
def Obligations.ResetsAndStarts : Prop :=
  (∀ s : State, s.sec.state = 0 → s.module.vin = true → s.module.pwrEn = true → s.module.enOk = true →
      s.module.tripN = true → s.module.vinSince + 1000000 ≤ s.module.time → ∃ t, exec .pwrGood s = .next t
        ∧ t.now = 0 ∧ t.sec.state = 1 ∧ t.sec.kind = 0 ∧ t.mem = [] ∧ t.wmem = [] ∧ t.cores = [] ∧ t.pages = []
        ∧ t.ports = [] ∧ t.spl = [] ∧ t.slu = {} ∧ t.fab = {} ∧ t.pres = {} ∧ t.chipSlots = [] ∧ t.hallSlots = []
        ∧ t.held = [] ∧ t.parked = [] ∧ t.images = [] ∧ t.knotIn = [] ∧ t.answers = [] ∧ t.flash = s.flash
          ∧ t.sent = s.sent ∧ t.sec.svn = s.sec.svn
        ∧ t.sec.serial = s.sec.serial ∧ t.sec.logStacks = s.sec.logStacks
        ∧ t.module = { s.module with power := 3, resetN := true } ∧ t.pending = s.pending)
  ∧ ((∀ s : State, s.powered → ∃ t, exec .resetNAssert s = .next t ∧ t.module.resetN = false
      ∧ t.sec.sampReload = (s.field .sec 0x118 1 1 == 1) ∧ t.sec.sampZero = (s.field .sec 0x118 0 0 == 1)
      ∧ t.sec.state = 1 ∧ t.sec.inReset = true ∧ t.cores = [] ∧ t.ports = [] ∧ t.spl = [] ∧ t.fab = {} ∧ t.pres = {}
      ∧ t.chipSlots = [] ∧ t.hallSlots = [] ∧ (∀ h ∈ t.held, h.req.cont = .none) ∧ t.parked = [] ∧ t.images = []
      ∧ t.slu = {} ∧ t.eth.qps = [] ∧ t.eth.mac = s.eth.mac
      ∧ t.eth.regions = [] ∧ (∀ r ∈ t.pages, r.2.vals = [] ∧ r.2.pend = []) ∧ (∀ k, (t.stack k).lines = [])
      ∧ t.mem = s.mem ∧ t.wmem = s.wmem ∧ t.flash = s.flash ∧ t.now = s.now)
    ∧ (∀ s : State, s.powered → (∃ r ∈ s.slu.resets, r.1 = 5 ∧ r.2.2 ≤ s.now) → ∃ t, exec .chipReset s = .next t
      ∧ t.sec.sampReload = (s.field .sec 0x118 1 1 == 1) ∧ t.sec.sampZero = (s.field .sec 0x118 0 0 == 1)
      ∧ t.sec.state = 1 ∧ t.sec.inReset = !s.module.resetN ∧ (s.module.resetN = true → t.sec.t0 = s.now)
      ∧ t.cores = [] ∧ t.slu = {} ∧ (∀ h ∈ t.held, h.req.cont = .none) ∧ (∀ r ∈ t.pages, r.2.vals = [] ∧ r.2.pend = [])
      ∧ t.mem = s.mem ∧ t.wmem = s.wmem ∧ t.flash = s.flash ∧ t.now = s.now ∧ t.module.resetN = s.module.resetN)
    ∧ ∀ (a : Nat) (s : State), s.powered → s.sec.activateAt = some a → a ≤ s.now → ∃ t, exec .activate s = .next t
      ∧ t.sec.state = 1 ∧ t.sec.activateAt = none ∧ t.cores = [] ∧ t.mem = s.mem ∧ t.flash = s.flash ∧ t.now = s.now
      ∧ t.sec.sampReload = true ∧ (s.sec.state ≠ 6 → t.sec.inReset = !s.module.resetN)
      ∧ (s.sec.state = 6 → t.sec.inReset = false ∧ t.sec.kind = 0 ∧ t.sec.t0 = s.now))
  ∧ ((∀ s : State, s.powered → s.sec.inReset = true → ∃ t, exec .warmStart s = .next t
      ∧ t.sec.state = 1 ∧ t.sec.kind = (if s.sec.coldAgain then 0 else 1) ∧ t.sec.t0 = s.now ∧ t.sec.inReset = false
      ∧ t.sec.slot = (if s.sec.coldAgain || s.sec.sampReload then 0 else 2) ∧ t.sec.restarts = s.sec.restarts
      ∧ (∀ k, (t.stack k).trainFails = 0) ∧ (s.sec.coldAgain = false → t.evt = s.evt ∧ t.sec.idOk = s.sec.idOk)
      ∧ t = { s with module := { s.module with resetN := true }, sec := t.sec, hbmStacks := t.hbmStacks, evt := t.evt })
    ∧ ∀ s : State, (s.sec.state = 1 ∨ s.sec.state = 2 ∨ s.sec.state = 3) → s.sec.inReset = false →
      s.sec.t0 + 800000000 ≤ s.now →
      ∃ t, exec .startWatchdog s = .next t ∧ t.sec.state = 1 ∧ t.sec.t0 = s.now ∧ t.sec.slot = 0
        ∧ t.sec.causeA = 1 ∧ t.sec.causeB = 1 ∧ t.sec.kind = (if s.sec.kind = 0 then 0 else 1) ∧ t.sec.restarts = min 255 (s.sec.restarts + 1)
        ∧ (s.sec.state ≠ 1 → (if s.sec.causeA = 0 then 0 else 1) ∈ t.sec.failSlots) ∧ (∀ k, (t.stack k).trainFails = 0)
        ∧ t = { s with sec := t.sec, hbmStacks := t.hbmStacks, evt := t.evt })

/-- R433, R435, R442, R444: the boot ROM's check of a flash slot starts the image, in a cold start with the soft repairs and
lane remaps of the flash log, tries slot B after slot A, or after slot B enters SAFE; the cause of the check is kept for its
slot.
R436, R437, R440, R441: the training of a batch in which no stack fails keeps each stack's results with their CRC and
goes on with the next batch; a warm start's check passes where stored results bear their CRC; a stack that fails its first
training in a cold start is counted, and one that fails its check in a warm start, or has no stored results, is escalated.
What the results are is not determined, and where they stand is the model's choice (log entry 73).
R433, R435: INIT ends in READY where no stack is retired and in DEGRADED where one is; a stack that the log names is
retired; a cold start has zeroed core SRAM and HBM.
Completion: under these conditions on the state and the operands alone, exec answers the next state described for
slotVerify, stackTrainingComplete and initComplete. -/
def Obligations.StartSteps : Prop :=
  (∀ (bad : Bool) (s : State), s.sec.state = 1 → s.sec.inReset = false → s.sec.slot < 2 →
      ∃ t cause, exec (.slotVerify bad) s = .next t
        ∧ cause = (if s.sec.slot ∈ s.sec.failSlots then 9
            else checkImage s.flash s.sec.slot bad s.sec.svn s.sec.keyHash)
        ∧ (if s.sec.slot = 0 then t.sec.causeA else t.sec.causeB) = cause
        ∧ t = { s with sec := t.sec, wmem := t.wmem, eth := t.eth, evt := t.evt, hbmStacks := t.hbmStacks }
        ∧ (∀ k < 12, (cause = 0 ∧ s.sec.kind = 0 ∧ (∃ r ∈ s.sec.logSoft, r.1 = k) →
            (t.stack k).softRows = (s.sec.logSoft.filter (·.1 == k)).map (·.2))
          ∧ (cause ≠ 0 ∨ s.sec.kind ≠ 0 → t.stack k = s.stack k))
        ∧ (cause = 0 → t.sec.state = 2 ∧ t.sec.batch = 0
          ∧ t.wmem = s.wmem.write (hdrLoad (s.flash.read (slotBase s.sec.slot) 256))
            (s.flash.read (slotBase s.sec.slot + 256) (hdrLength (s.flash.read (slotBase s.sec.slot) 256))))
        ∧ (cause ≠ 0 → t.wmem = s.wmem ∧ (s.sec.slot = 0 → t.sec.state = 1 ∧ t.sec.slot = 1)
          ∧ (s.sec.slot = 1 → t.sec.state = 6 ∧ t.sec.fwVer = 0)))
  ∧ ((∀ s : State, s.sec.state = 2 → s.sec.inReset = false → s.sec.batch = 0 → s.sec.kind = 0 →
      ∃ t, exec (.stackTrainingComplete []) s = .next t ∧ t = { s with sec := t.sec, freeCount := t.freeCount }
        ∧ t.sec = { s.sec with batch := 1, trained := t.sec.trained } ∧ (∀ k ∈ batchMembers s 0, trainingKept t k)
        ∧ ∀ k ∉ batchMembers s 0, trainingKept t k = trainingKept s k)
    ∧ (∀ s : State, s.sec.state = 2 → s.sec.inReset = false → s.sec.batch = 0 → s.sec.kind ≠ 0 →
      (∀ k ∈ batchMembers s 0, trainingKept s k) →
      exec (.stackTrainingComplete []) s = .next { s with sec := { s.sec with batch := 1 } })
    ∧ (∀ s : State, s.sec.state = 2 → s.sec.inReset = false → s.sec.batch = 1 → s.sec.escalated = [] →
        (∀ k < 12, (s.stack k).trainFails ≠ 1) → (s.sec.kind ≠ 0 → ∀ k ∈ batchMembers s 1, trainingKept s k) →
        ∃ t, exec (.stackTrainingComplete []) s = .next t ∧ t = { s with sec := t.sec, freeCount := t.freeCount }
          ∧ t.sec = { s.sec with state := 3, trained := t.sec.trained }
          ∧ (s.sec.kind = 0 → ∀ k ∈ batchMembers s 1, trainingKept t k) ∧ (s.sec.kind ≠ 0 → t.sec.trained = s.sec.trained))
    ∧ ∀ (k : Nat) (failed : List Nat) (s : State), s.sec.state = 2 → s.sec.inReset = false → s.sec.batch = 0 → k < 6 →
        k ∉ s.sec.logStacks → (s.stack k).state ≠ 2 → (s.stack k).trainFails = 0 →
        failed = [k] ∨ (failed = [] ∧ s.sec.kind ≠ 0 ∧ trainingKept s k = false) →
        (s.sec.kind ≠ 0 → ∀ j ∈ batchMembers s 0, j ≠ k → trainingKept s j) →
        ∃ t, exec (.stackTrainingComplete failed) s = .next t ∧ t.sec.state = 2 ∧ t.sec.batch = 1
          ∧ t = { s with sec := t.sec, hbmStacks := t.hbmStacks, evt := t.evt, freeCount := t.freeCount }
          ∧ (s.sec.kind = 0 → t.stack k = { s.stack k with trainFails := 1 } ∧ ∀ j ≠ k, t.stack j = s.stack j)
          ∧ (s.sec.kind ≠ 0 → t.sec.escalated = s.sec.escalated ++ [k] ∧ t.hbmStacks = s.hbmStacks))
  ∧ (∀ s : State, s.sec.state = 3 → s.sec.inReset = false → ∃ t, exec .initComplete s = .next t
      ∧ (t.sec.state = 4 ∨ t.sec.state = 5) ∧ (t.sec.state = 5 ↔ ∃ k < 12, (t.stack k).state = 2) ∧ t.sec.readyT = s.now
      ∧ (∀ k ∈ s.sec.logStacks, (t.stack k).state = 2)
      ∧ (s.sec.kind = 0 → ∀ a, a < 0xC0A0000000 → t.mem.get a = 0#8)
      ∧ (s.sec.kind ≠ 0 → s.sec.sampZero = false → s.sec.escalated = [] → t.mem = s.mem)
      ∧ t = { s with sec := t.sec, hbmStacks := t.hbmStacks, evt := t.evt, mem := t.mem })

/-- R448, R440, R452: SEC_CMD burns an SVN that both slots' images bear, and otherwise is refused with cause 12; it clears a
stack's log entry; anyone but a warden or TMP is refused it.
Completion: under these conditions on the state and the operands alone, exec answers the next state described for
burnSvn and clearLogEntry. -/
def Obligations.SecCommands : Prop :=
  (∀ (who : Issuer) (v : Word) (s : State), s.powered → secIssuer who →
    ∃ t, exec (.burnSvn who v) s = .next t
      ∧ (slotAllows s 0 (bits v.toNat 13 8) → slotAllows s 1 (bits v.toNat 13 8) →
        t = { s with sec := { s.sec with svn := max s.sec.svn (bits v.toNat 13 8) } })
      ∧ (¬ (slotAllows s 0 (bits v.toNat 13 8) ∧ slotAllows s 1 (bits v.toNat 13 8)) →
        t = { s with sec := { s.sec with fwCause := 12 }, evt := t.evt }))
  ∧ (∀ (who : Issuer) (v : Word) (s : State), s.powered → secIssuer who → bits v.toNat 3 0 ≤ 11 →
    exec (.clearLogEntry who v) s = .next { s with sec := { s.sec with
      logStacks := s.sec.logStacks.filter (· ≠ bits v.toNat 3 0) } })
  ∧ ∀ (who : Issuer) (v : Word) (s : State), s.powered → ¬ secIssuer who →
    ∀ c ∈ [Instr.burnSvn who v, Instr.clearLogEntry who v], ∃ t, exec c s = .next t ∧ t = { s with evt := t.evt }

/-! ## The sluice (chapter 15) -/

/-- R421, R423, R430: SLU_CMD OP 1 drains a polder that is ACTIVE at once if its cores are quiescent and else as soon as
they are; OP 2 is the wake event of a polder that is not ACTIVE and has none. Nothing but the sluice, and the issuer's stage
on its page, changes.
R411, R420, R421, R423, R216: a polder whose cores have been quiescent long enough, or that was asked to, enters
DRAINING and then DRAINED, where its instruction caches are lost and its stewards' clocks stop; a wake event takes it to
WAKING; a deadline that it registered is one.
R424, R430: the sluice admits waking polders in ascending order, at most eight in a dike tick; a polder whose wake is
complete is ACTIVE, its wake is counted, its stewards' clocks run, and SLU_WAKE_LAST records cause, polder and latency.
Completion: under these conditions on the state and the operands alone, exec answers the next state described for
sluDrain, sluWake, drainDelayExpiry, drainingComplete, wakeEvent, wakeLeadExpiry, powerUpGrant and wakeComplete. -/
def Obligations.PolderPower : Prop :=
  ((∀ (who : Issuer) (p : Nat) (s : State), s.settled → s.live → p < 160 → mayWrite s who .slu 0x138 (0x100 + p) →
      (s.polder p).state = 0 → ∃ t, exec (.sluDrain who p) s = .next t ∧ t = { s with slu := t.slu, pages := t.pages }
        ∧ (polderQuiet s p → (t.polder p).state = 1)
        ∧ (¬ polderQuiet s p → (t.polder p).state = 0 ∧ (t.polder p).drainAsked = true)
        ∧ ∀ q ≠ p, (t.polder q).state = (s.polder q).state)
    ∧ (∀ (who : Issuer) (p : Nat) (s : State), s.settled → s.live → p < 160 → mayWrite s who .slu 0x138 (0x200 + p) →
      (s.polder p).state ≠ 0 → (s.polder p).wake = none →
      ∃ t, exec (.sluWake who p) s = .next t ∧ t = { s with slu := t.slu, pages := t.pages }
        ∧ (t.polder p).wake = some (s.now, 5) ∧ ∀ q, (t.polder q).state = (s.polder q).state)
    ∧ ∀ (who : Issuer) (p : Nat) (s : State), s.settled → s.live → 160 ≤ p → p < 256 →
      mayWrite s who .slu 0x138 (0x100 + p) →
      ∃ t, exec (.sluDrain who p) s = .next t ∧ t = { s with slu := t.slu, pages := t.pages, evt := t.evt }
        ∧ t.evt = (raiseEv .slu evSluCmdBad (detUnit 1 p 0) s).evt ∧ ∀ q, (t.polder q).state = (s.polder q).state)
  ∧ ((∀ (p : Nat) (s : State), s.settled → polderDrainDue s p → ∃ t, exec (.drainDelayExpiry p) s = .next t
      ∧ (t.polder p).state = 1 ∧ t = { s with slu := t.slu } ∧ ∀ q ≠ p, (t.polder q).state = (s.polder q).state)
    ∧ (∀ (p : Nat) (s : State), s.settled → s.live → (s.polder p).state = 1 → (s.polder p).wake = none →
      ∃ t, exec (.drainingComplete p) s = .next t ∧ (t.polder p).state = 2
        ∧ (∀ c, polderOf c = p → (t.core c).stw = { (s.core c).stw with
            icache := [], cycles := stopCycles s (s.core c).stw }
          ∧ (t.core c).arr.tally = [] ∧ (t.core c).sfu = (s.core c).sfu ∧ (t.core c).bol = (s.core c).bol
          ∧ (t.core c).ctx = (s.core c).ctx ∧ (t.core c).coils = (s.core c).coils)
        ∧ (∀ c, polderOf c ≠ p → t.core c = s.core c) ∧ t = { s with slu := t.slu, cores := t.cores })
    ∧ (∀ (p : Nat) (cause : WakeCause) (s : State), s.settled → s.live → wakeDue s p (causeCode cause) →
      ∃ t, exec (.wakeEvent p cause) s = .next t ∧ (t.polder p).state = 3 ∧ (t.polder p).granted = false
        ∧ t = { s with slu := t.slu } ∧ ∀ q ≠ p, (t.polder q).state = (s.polder q).state)
    ∧ ∀ (p : Nat) (s : State), s.settled → s.live → leadDue s p → ∃ t, exec (.wakeLeadExpiry p) s = .next t
      ∧ (t.polder p).wake = some (s.now, 3) ∧ t = { s with slu := t.slu } ∧ ∀ q, (t.polder q).state = (s.polder q).state)
  ∧ ((∀ s : State, s.settled → s.live → (∃ p < 160, (s.polder p).state = 3 ∧ (s.polder p).granted = false) →
      ∃ t, exec .powerUpGrant s = .next t ∧ t = { s with slu := t.slu }
        ∧ (∀ p, (t.polder p).granted = ((s.polder p).granted || (grantable s).contains p))
        ∧ grantsNow t = grantsNow s + (grantable s).length ∧ grantsNow t ≤ max 8 (grantsNow s)
        ∧ ∀ p, (t.polder p).state = (s.polder p).state)
    ∧ ∀ (p : Nat) (s : State) (t0 cause : Nat), s.settled → s.live → (s.polder p).state = 3 →
      (s.polder p).granted = true → (s.polder p).wake = some (t0, cause) → (s.polder p).knots = [] →
      (∀ h ∈ s.held, h.gate ≠ .polder p) → (∀ a ∈ s.parked, a.1 ≠ p) →
      ∃ t, exec (.wakeComplete p) s = .next t ∧ (t.polder p).state = 0
        ∧ (t.polder p).wakes = ((s.polder p).wakes + 1) % 2 ^ 32
        ∧ t.slu.wakeLast = fld cause 42 40 + fld p 39 32 + fld (min (s.now - t0) 0xFFFF) 15 0
        ∧ (∀ c, t.core c = { s.core c with stw := { (s.core c).stw with
            cycles := if polderOf c = p then startCycles s (s.core c).stw.cycles else (s.core c).stw.cycles } })
        ∧ t = { s with slu := t.slu, pages := t.pages, cores := t.cores } ∧ ∀ q ≠ p, (t.polder q).state = (s.polder q).state)

/-- R417, R430: SLU_RESET schedules the reset of a domain's target for the tick of its write plus 1,000.
R417: the reset of a core, or of a polder's 64 cores, puts them and their control pages at their reset values and keeps
core SRAM, the chip pages and every core outside.
R417: the reset of a fabric port puts the port and its page at their reset values, its link in training; that of the
host port puts the MAC, the queue pairs, the kept responses and the ETH and ROCE pages there and keeps the regions.
Completion: under these conditions on the state and the operands alone, exec answers the next state described for
sluResetCore, sluResetPolder, sluResetFabricPort, sluResetHostPort, sluResetChip, coreReset, polderReset,
fabricPortReset and hostPortReset. -/
def Obligations.DomainResets : Prop :=
  (∀ (who : Issuer) (s : State), s.settled → s.live →
      ∀ r ∈ [(1, 10240, Instr.sluResetCore who), (2, 160, Instr.sluResetPolder who), (3, 16, Instr.sluResetFabricPort who),
          (4, 1, fun _ => Instr.sluResetHostPort who), (5, 1, fun _ => Instr.sluResetChip who)],
        ∀ x < r.2.1, mayWrite s who .slu 0x140 (r.1 * 0x10000 + x) →
          ∃ t, exec (r.2.2 x) s = .next t ∧ t = { s with slu := t.slu, pages := t.pages }
            ∧ t.slu.resets = s.slu.resets ++ [(r.1, x, s.now + 1000)] ∧ ∀ q, (t.polder q).state = (s.polder q).state)
  ∧ ((∀ (c : Nat) (s : State), s.settled → s.live → resetDue s 1 c → ∃ t, exec (.coreReset c) s = .next t
      ∧ t.core c = { stw := { cycles := { since := some s.now } } }
      ∧ (t.page (.core c)).vals = [] ∧ (t.page (.core c)).pend = [] ∧ (∀ r ∈ t.resv, r.1 ≠ c)
      ∧ (∀ m ∈ t.mons, m.core ≠ c) ∧ (∀ w ∈ t.waits, w.core ≠ c)
      ∧ (∀ d ≠ c, (t.core d).stw = (s.core d).stw ∧ (t.core d).sfu = (s.core d).sfu ∧ (t.core d).ctx = (s.core d).ctx)
      ∧ (∀ p ≠ .core c, t.page p = s.page p) ∧ t.mem = s.mem ∧ t.chipSlots = s.chipSlots ∧ t.hallSlots = s.hallSlots
      ∧ t.hbmStacks = s.hbmStacks ∧ t.evt = s.evt)
    ∧ ∀ (p : Nat) (s : State), s.settled → s.live → resetDue s 2 p → ∃ t, exec (.polderReset p) s = .next t
      ∧ (∀ c, polderOf c = p → t.core c = { stw := { cycles := { since := some s.now } } }
        ∧ (t.page (.core c)).vals = [])
      ∧ (∀ c, polderOf c ≠ p → (t.core c).stw = (s.core c).stw ∧ (t.core c).sfu = (s.core c).sfu)
      ∧ t.mem = s.mem ∧ t.chipSlots = s.chipSlots ∧ t.hbmStacks = s.hbmStacks ∧ t.evt = s.evt)
  ∧ ((∀ (p : Nat) (s : State), s.settled → s.live → resetDue s 3 p → ∃ t, exec (.fabricPortReset p) s = .next t
      ∧ (t.port p).link0.state = 2 ∧ (t.port p).link0.replay = [] ∧ (t.port p).link0.queue = []
      ∧ (t.port p).link0.neighbour = none ∧ (t.port p).split = false ∧ (t.page (.fport p)).vals = []
      ∧ (∀ q ≠ p, t.port q = s.port q) ∧ t.fab = s.fab
      ∧ t = { s with ports := t.ports, pages := t.pages, slu := t.slu })
    ∧ ∀ s : State, s.settled → s.live → resetDue s 4 0 → ∃ t, exec .hostPortReset s = .next t
      ∧ t.eth.link = 0 ∧ t.eth.qps = [] ∧ t.eth.kept = [] ∧ (t.page .eth).vals = [] ∧ (t.page .roce).vals = []
      ∧ t.eth.regions = s.eth.regions ∧ t.eth.mac = s.eth.mac
      ∧ t = { s with eth := t.eth, pages := t.pages, slu := t.slu, held := t.held, freeCount := t.freeCount })

/-! ## Register pages (chapter 14) -/

/-- R392, R394: an 8-byte write of a register puts its RWB fields into the pending copy, which no APPLY has released, and
changes no applied value; a 4-byte write of the low word is held in the issuer's stage and changes nothing else; one of the
high word commits the staged half with it, and without a stage of its register the low half of the pending copy, or of the
applied value, while the issuer's stage of another register is discarded. The knot page, whose idle slots apply at once, has a statement of its own.
R391: a 4-byte read of a low word keeps the high half of the same value in the issuer's shadow, and the read of the high
word gives the shadow and frees it, or without one the live high half; a steward's read puts it into x[rd].
Completion: under these conditions on the state and the operands alone, exec answers the next state described for
registerWrite, lowWordWrite, highWordWrite, lowWordRead and highWordRead. -/
def Obligations.RegisterAccesses : Prop :=
  (∀ (who : Issuer) (p : PageId) (dev off : Nat) (d : RegDef) (s : State), s.settled → s.live → realPage p → p ≠ .knot →
      regDef p off = some d → off % 8 = 0 → d.rw = 0 → d.wo = 0 → d.rwb ≠ 0 →
      (∀ v : Word, mayWrite s who p off v.toNat →
        ∃ t, exec (.registerWrite ⟨who, pageBase p + off, .none, 0xFFF⟩ 8 v) s = .next t
          ∧ t = { s with pages := t.pages, slu := t.slu } ∧ (∀ x, t.reg p x = s.reg p x)
          ∧ (t.pendOf p off).mask = (s.pendOf p off).mask ||| d.rwb ∧ (t.pendOf p off).released = false
          ∧ (t.pendOf p off).val &&& d.rwb = v.toNat &&& d.rwb
          ∧ (∀ x ≠ off, t.pendOf p x = s.pendOf p x) ∧ ∀ r ≠ p, t.page r = s.page r)
      ∧ (∀ v : Word, barrier s ⟨who, pageBase p + off, .none, dev⟩ (.store (leBytes 4 v.toNat)) = .clear →
        ∃ t, exec (.lowWordWrite ⟨who, pageBase p + off, .none, dev⟩ v) s = .next t
          ∧ t = { s with pages := t.pages, slu := t.slu } ∧ (∀ r ≠ p, t.page r = s.page r)
          ∧ t.page p = { s.page p with stages := takeHalf (s.page p).stages ⟨who, off, v.toNat % 2 ^ 32⟩ })
      ∧ ∀ (v : Word) (low : Nat), (findHalf (s.page p).stages who off = some ⟨who, off, low⟩ ∧ low < 2 ^ 32)
          ∨ (findHalf (s.page p).stages who off = none ∧ low = s.regNewest p off % 2 ^ 32) →
        barrier s ⟨who, pageBase p + (off + 4), .none, dev⟩ (.store (leBytes 4 v.toNat)) = .clear →
        ∃ t, exec (.highWordWrite ⟨who, pageBase p + (off + 4), .none, dev⟩ v) s = .next t
          ∧ t = { s with pages := t.pages, slu := t.slu } ∧ (∀ x, t.reg p x = s.reg p x)
          ∧ (t.pendOf p off).mask = (s.pendOf p off).mask ||| d.rwb ∧ (t.pendOf p off).released = false
          ∧ (t.pendOf p off).val &&& d.rwb = (low + v.toNat % 2 ^ 32 * 2 ^ 32) &&& d.rwb
          ∧ (∀ h ∈ (t.page p).stages, h.who ≠ who) ∧ ∀ r ≠ p, t.page r = s.page r)
  ∧ (∀ (who : Issuer) (p : PageId) (dev off : Nat) (d : RegDef) (s : State), s.settled → s.live → realPage p →
      regDef p off = some d → off % 8 = 0 → coilHole p off = false → coilDataOf p off = none → freeCounter p off = false →
      (barrier s ⟨who, pageBase p + off, .none, dev⟩ (.load 4 false) = .clear →
        ∃ t, exec (.lowWordRead ⟨who, pageBase p + off, .none, dev⟩) s = .next t
          ∧ t = { s with pages := t.pages, slu := t.slu } ∧ (∀ r ≠ p, t.page r = s.page r)
          ∧ t.page p = { s.page p with
              shadows := takeHalf (s.page p).shadows ⟨who, off, (regValue p off s).1 / 2 ^ 32⟩ })
      ∧ (∀ h, findHalf (s.page p).shadows who off = some h →
        barrier s ⟨who, pageBase p + (off + 4), .none, dev⟩ (.load 4 false) = .clear →
        ∃ t, exec (.highWordRead ⟨who, pageBase p + (off + 4), .none, dev⟩) s = .next t
          ∧ t = { s with pages := t.pages, slu := t.slu } ∧ (∀ r ≠ p, t.page r = s.page r)
          ∧ t.page p = { s.page p with shadows := freeHalf (s.page p).shadows who off })
      ∧ (findHalf (s.page p).shadows who off = none →
        barrier s ⟨who, pageBase p + (off + 4), .none, dev⟩ (.load 4 false) = .clear →
        ∃ t, exec (.highWordRead ⟨who, pageBase p + (off + 4), .none, dev⟩) s = .next t ∧ t = { s with slu := t.slu })
      ∧ ∀ (c rd len va cause : Nat) (sg : Bool), who = .steward c → awaits s c len va cause →
        ∀ r ∈ [(off, Instr.lowWordRead, (regValue p off s).1), (off + 4, Instr.highWordRead,
            ((findHalf (s.page p).shadows who off).map (·.val)).getD ((regValue p off s).1 / 2 ^ 32))],
          barrier s ⟨who, pageBase p + r.1, .toReg c rd 4 sg, dev⟩ (.load 4 false) = .clear →
          ∃ t, exec (r.2.1 ⟨who, pageBase p + r.1, .toReg c rd 4 sg, dev⟩) s = .next t
            ∧ t = { s with pages := t.pages, slu := t.slu, cores := t.cores } ∧ (∀ d ≠ c, t.core d = s.core d)
            ∧ t.core c = { s.core c with stw := { ((s.core c).stw.setX rd
                (loadValue 4 sg (leBytes 4 r.2.2))).retire len with wait := .nothing } })

/-- R397, R402: APPLY_CTL sets HOLD, or releases what pends now to its boundaries; EVT_ACK moves forward only.
R394, R397: FORCE makes a page's pending copy its applied values, whatever HOLD is, and a boundary those registers that
wait for it, where HOLD is 0 or an APPLY has released them. The pages are those on which nothing more follows; what follows
on the others stands in the statements about their blocks.
Completion: under these conditions on the state and the operands alone, exec answers the next state described for
hold, apply, evtAck, force and applyBoundary. -/
def Obligations.HoldApplyForce : Prop :=
  (∀ (who : Issuer) (p : PageId) (s : State), s.settled → s.live → realPage p →
      (p = .knot → (s.page .knot).pend = []) →
      (∀ v : Bool, mayWrite s who p 0x018 (b2n v) → ∃ t, exec (.hold who p v) s = .next t
        ∧ t = { s with pages := t.pages, slu := t.slu } ∧ (∀ r ≠ p, t.page r = s.page r)
        ∧ t.page p = { s.page p with hold := v, stages := freeHalf (s.page p).stages who 0x018 })
      ∧ (mayWrite s who p 0x018 (0x100 + b2n (s.page p).hold) → ∃ t, exec (.apply who p) s = .next t
        ∧ t = { s with pages := t.pages, slu := t.slu } ∧ (∀ r ≠ p, t.page r = s.page r)
        ∧ t.page p = { s.page p with pend := (s.page p).pend.map fun r => (r.1, { r.2 with released := true })
                                     stages := freeHalf (s.page p).stages who 0x018 })
      ∧ ∀ v : Word, mayWrite s who p 0x048 v.toNat → ∃ t, exec (.evtAck who p v) s = .next t
        ∧ t = { s with pages := t.pages, slu := t.slu } ∧ (∀ r ≠ p, t.page r = s.page r)
        ∧ t.page p = { s.page p with evAck := max (s.page p).evAck v.toNat
                                     stages := freeHalf (s.page p).stages who 0x048 })
  ∧ (∀ (p : PageId) (s : State) (off : Nat) (d : Pend), s.settled → s.live →
      p ∈ [PageId.evt, .slu, .sec, .pres, .dist, .roce] → (s.page p).pend = [(off, d)] →
      (∀ who, mayWrite s who p 0x018 (0x200 + b2n (s.page p).hold) → ∃ t, exec (.force who p) s = .next t
        ∧ t = { s with pages := t.pages, slu := t.slu } ∧ (∀ r ≠ p, t.page r = s.page r) ∧ (t.page p).pend = []
        ∧ t.reg p off = pendValue s p off d ∧ ∀ x ≠ off, t.reg p x = s.reg p x)
      ∧ ((s.page p).hold = false ∨ d.released = true → boundaryOf p off = .page →
        ∃ t, exec (.applyBoundary p .page) s = .next t
          ∧ t = { s with pages := t.pages, slu := t.slu } ∧ (∀ r ≠ p, t.page r = s.page r) ∧ (t.page p).pend = []
          ∧ t.reg p off = pendValue s p off d ∧ ∀ x ≠ off, t.reg p x = s.reg p x)
      ∧ ((s.page p).hold = true → d.released = false → boundaryOf p off = .page →
        ∃ t, exec (.applyBoundary p .page) s = .next t ∧ t = { s with slu := t.slu }))

/-- R405, R406: a comparison is skipped while anything pends; it stores the CRC of the applied image, clears DRIFT where
that is CFG_CRC_REF, and elsewhere sets it and raises CONFIG_DRIFT, once for a mismatch that lasts.
R62: at the end of its window a core's saturation count, and with it CALIB_DRIFT, starts anew; the total stands.
R425 to R429: a governor window takes the smaller of the cooling cap and HOST_CAP where the hottest sensor is 5 degrees
below its limit, three quarters of the cap before where it is at it, and never more than that smaller cap; what a window
draws beyond its cap is debt, which the margin of a later one repays; it keeps the readings, and reports a thermal episode
on THERM_ALERT_N.
Completion: under these conditions on the state and the operands alone, exec answers the next state described for
configurationComparison, saturationWindow and governorWindow. -/
def Obligations.WindowsAndComparison : Prop :=
  (∀ (p : PageId) (s : State), s.settled → s.live → compareDue s p →
      ((s.page p).pend ≠ [] → ∃ t, exec (.configurationComparison p) s = .next t
        ∧ t = { s with pages := t.pages, slu := t.slu } ∧ (t.page p).skipped = true
        ∧ (t.page p).crcNow = (s.page p).crcNow ∧ (t.page p).drift = (s.page p).drift)
      ∧ ((s.page p).pend = [] → ∃ t, exec (.configurationComparison p) s = .next t
        ∧ t = { s with pages := t.pages, slu := t.slu, evt := t.evt } ∧ (t.page p).skipped = false
        ∧ (t.page p).crcNow = crc32c (pageImage s p) ∧ (t.page p).crcCount = ((s.page p).crcCount + 1) % 2 ^ 32
        ∧ ((t.page p).drift = true ↔ crc32c (pageImage s p) ≠ s.reg p 0x020 % 2 ^ 32)
        ∧ (crc32c (pageImage s p) = s.reg p 0x020 % 2 ^ 32 ∨ (s.page p).mismatch = true → t.evt = s.evt)
        ∧ (crc32c (pageImage s p) ≠ s.reg p 0x020 % 2 ^ 32 → (s.page p).mismatch = false →
          t.evt.driftLast = pageBase p ∧ t.evt.inputs = (raiseEv p evConfigDrift
            (detCrc (crc32c (pageImage s p)) (s.reg p 0x020 % 2 ^ 32)) s).evt.inputs)))
  ∧ (∀ (c : Nat) (s : State), s.settled → s.powered → c < 10240 → s.field (.core c) 0x400 31 0 ≠ 0 →
      (s.core c).satWindow ≠ s.now / s.field (.core c) 0x400 31 0 → ∃ t, exec (.saturationWindow c) s = .next t
        ∧ t.core c = { s.core c with satCount := 0, satRaised := false
                                     satWindow := s.now / s.field (.core c) 0x400 31 0 }
        ∧ (∀ d ≠ c, t.core d = s.core d) ∧ t = { s with cores := t.cores, slu := t.slu })
  ∧ (∀ (g : GovReadings) (s : State), s.powered → s.gov.window ≤ s.now / 1000 → (s.page .gov).pend = [] →
      ∃ t, exec (.governorWindow g) s = .next t
        ∧ t = { s with gov := t.gov, evt := t.evt, module := { s.module with
          straps := g.straps, thermAlertN := !t.gov.therm && !s.module.boardAlert } }
        ∧ t.gov.meas = g.eMeas ∧ t.gov.last = g ∧ t.gov.window = s.now / 1000 + 1 ∧ t.gov.begun = true
        ∧ (s.gov.begun = true → t.gov.debt = (if s.gov.capEff * 10 < g.eMeas
          then s.gov.debt + ((g.eMeas - s.gov.capEff * 10 : Nat) : Int) * 10000000
          else max 0 (s.gov.debt - ((s.gov.capEff * 10 - g.eMeas : Nat) : Int) * 10000000)))
        ∧ t.gov.capEff ≤ min (coolCap s.gov.cool) (s.field .gov 0x100 31 16)
        ∧ (g.hottest < (s.field .gov 0x108 23 16 : Int) - 5 → t.gov.therm = false
          ∧ t.gov.capEff = min (coolCap s.gov.cool) (s.field .gov 0x100 31 16))
        ∧ ((s.field .gov 0x108 23 16 : Int) ≤ g.hottest → s.gov.begun = true → t.gov.therm = true
          ∧ t.gov.capEff = min (s.gov.capEff * 3 / 4) (min (coolCap s.gov.cool) (s.field .gov 0x100 31 16))))

/-! ## Events (chapter 17) -/

/-- R401, R461, R462, R464: the collector gives the head of an input the next sequence number, which the page stores for its
local event; in one dike tick it takes the heads of at most four inputs, each of which is logged or dropped and counted; the
page counts restart at a window of 100,000 ticks.
Completion: under these conditions on the state and the operands alone, exec answers the next state described for
eventLog, pageLimitWindow and eventDatagram. -/
def Obligations.EventLog : Prop :=
  (∀ (s : State) (i : Nat) (r : Raise) (q : List Raise), s.powered → servedInputs s = [i] →
    nth [] s.evt.inputs i = r :: q → s.now / 100000 ≤ s.evt.window →
    (s.field .evt 0x100 15 0 = 0 ∨ aget 0 (r.code % 64) (s.page r.page).evCount < s.field .evt 0x100 15 0) →
    ∃ t, exec .eventLog s = .next t ∧ t = { s with pages := t.pages, evt := t.evt }
      ∧ t.evt.next = s.evt.next + 1 ∧ t.evt.inputs = put s.evt.inputs i q ∧ t.evt.pointer = (i + 1) % 5
      ∧ t.evt.log.head? = some ⟨s.evt.next, r.time, r.code, pageIdent r.page, r.detail, s.now⟩
      ∧ aget 0 (r.code % 64) (t.page r.page).evSeq = s.evt.next ∧ ∀ p ≠ r.page, t.page p = s.page p)
  ∧ (∀ (s : State) (i : Nat) (r : Raise) (q : List Raise), s.powered → servedInputs s = [i] →
    nth [] s.evt.inputs i = r :: q → s.now / 100000 ≤ s.evt.window → s.field .evt 0x100 15 0 ≠ 0 →
    s.field .evt 0x100 15 0 ≤ aget 0 (r.code % 64) (s.page r.page).evCount →
    ∃ t, exec .eventLog s = .next t ∧ t = { s with evt := t.evt } ∧ t.evt.log = s.evt.log
      ∧ t.evt.next = s.evt.next ∧ t.evt.dropped = (s.evt.dropped + 1) % 2 ^ 32)
  ∧ (∀ s : State, s.powered → ∃ t, exec .eventLog s = .next t ∧ t = { s with pages := t.pages, evt := t.evt }
    ∧ (servedInputs s).length ≤ 4 ∧ (∀ i ∉ servedInputs s, nth [] t.evt.inputs i = nth [] s.evt.inputs i)
    ∧ (∀ i ∈ servedInputs s, nth [] t.evt.inputs i = (nth [] s.evt.inputs i).drop 1)
    ∧ (servedInputs s ≠ [] → servedInputs t = []) ∧ s.evt.next ≤ t.evt.next
    ∧ (t.evt.dropped + (t.evt.next - s.evt.next)) % 2 ^ 32 = (s.evt.dropped + (servedInputs s).length) % 2 ^ 32)
  ∧ (∀ s : State, s.powered → s.evt.window < s.now / 100000 → ∃ t, exec .pageLimitWindow s = .next t
    ∧ t = { s with pages := t.pages, evt := t.evt } ∧ t.evt = { s.evt with window := s.now / 100000 }
    ∧ ∀ p, (t.page p).evCount = [] ∧ (t.page p).evSeq = (s.page p).evSeq ∧ (t.page p).vals = (s.page p).vals)
  ∧ ∀ s : State, datagramDue s → ∃ t, exec .eventDatagram s = .next t
    ∧ t.sent = .events s.eth.destIp s.eth.destPort (datagramBytes s (datagramRecords s)) :: s.sent
    ∧ t.evt = { s.evt with sent := firstUnsent s + (datagramRecords s).length }
    ∧ t = { s with sent := t.sent, evt := t.evt }

/-! ## Stewards and engine ports (chapter 7) -/

/-- R173, R174, R172: an IDLE steward whose bollard 0 is full runs in M mode from word[51:0] with a0 = word[63:52]; a write
of CMD 1 takes a steward with no access in progress to IDLE; CORE_STW_MSIP holds MSIP.
R172, R171: an interrupt that is pending and enabled is taken, MEI before MSI before MTI: the pc is saved, the cause has
its interrupt bit, and the steward goes to the vector in M mode, or into HALT where mtvec is 0; MTIP is pending from the
tick that sdtimecmp names on, and a drained core with MTIE wakes at it.
R181: WRS waits while its monitor is armed, has not fired and no enabled interrupt is pending, and else completes at
once; the wait ends when the monitor fires, an interrupt is pending, or its bound is reached, with the monitor disarmed.
Completion: under these conditions on the state and the operands alone, exec answers the next state described for
stewardLaunch, moveToIdle, coreStwMsip, stewardInterrupt, sdtimecmpMatch, wrsSto, wrsNto, wrsWake and wrsLimitExpiry. -/
def Obligations.StewardControl : Prop :=
  ((∀ (c : Nat) (v : Word) (s : State), s.settled → launchDue s c → (∀ w ∈ (s.core c).bol.waits, w.n = 0 → w.val = none) →
      alookup 0 (s.core c).bol.full = some v → ∃ t, exec (.stewardLaunch c) s = .next t ∧ onlyCore c s t
        ∧ (t.core c).stw.st = .run ∧ (t.core c).stw.user = false ∧ (t.core c).stw.pc = BitVec.ofNat 64 (bits v.toNat 51 0)
        ∧ (t.core c).stw.x = put (s.core c).stw.x 10 (BitVec.ofNat 64 (bits v.toNat 63 52))
        ∧ (t.core c).stw.csr = (s.core c).stw.csr ∧ (t.core c).bol.full = (s.core c).bol.full.filter (·.1 ≠ 0))
    ∧ (∀ (who : Issuer) (c : Nat) (s : State), s.settled → s.live → c < 10240 → mayWrite s who (.core c) 0x110 1 →
      (s.core c).stw.wait = .nothing → ∃ t, exec (.moveToIdle who c) s = .next t
        ∧ (t.core c).stw = { (s.core c).stw with st := .idle, wait := .nothing, stopping := false }
        ∧ (∀ d ≠ c, t.core d = s.core d) ∧ t = { s with cores := t.cores, slu := t.slu, pages := t.pages })
    ∧ ∀ (who : Issuer) (c : Nat) (v : Word) (s : State), s.settled → s.live → c < 10240 →
      mayWrite s who (.core c) 0x118 v.toNat → ∃ t, exec (.coreStwMsip who c v) s = .next t
        ∧ (t.core c).stw = { (s.core c).stw with msip := v.toNat.testBit 0 }
        ∧ (∀ d ≠ c, t.core d = s.core d) ∧ t = { s with cores := t.cores, slu := t.slu, pages := t.pages })
  ∧ ((∀ (c i : Nat) (s : State), s.settled → stwRunnable s c → interruptDue s c = some i →
      ∃ t, exec (.stewardInterrupt c) s = .next t ∧ (∀ d ≠ c, t.core d = s.core d)
        ∧ t = { s with cores := t.cores, slu := t.slu, evt := t.evt } ∧ (t.core c).stw.user = false
        ∧ (t.core c).stw.x = (s.core c).stw.x ∧ (t.core c).stw.csrVal 0x341 = (s.core c).stw.pc.toNat
        ∧ (t.core c).stw.csrVal 0x342 = 2 ^ 63 + i ∧ (t.core c).stw.csrVal 0x300 / 8 % 2 = 0
        ∧ ((s.core c).stw.csrVal 0x305 ≠ 0 → (t.core c).stw.st = .run ∧ t.evt = s.evt
          ∧ (t.core c).stw.pc = BitVec.ofNat 64 (alignDown ((s.core c).stw.csrVal 0x305) 4
            + if (s.core c).stw.csrVal 0x305 % 4 = 1 then 4 * i else 0))
        ∧ ((s.core c).stw.csrVal 0x305 = 0 → (t.core c).stw.st = .halt
          ∧ (t.core c).stw.haltPc = (s.core c).stw.pc.toNat))
    ∧ ∀ (c : Nat) (s : State), s.settled → s.live → c < 10240 → (s.core c).stw.csrVal 0x7C0 ≤ s.now →
      ∃ t, exec (.sdtimecmpMatch c) s = .next t ∧ t = { s with slu := t.slu } ∧ (mip t c).testBit 7 = true
        ∧ ((s.polder (polderOf c)).state ≠ 0 → (s.polder (polderOf c)).wake = none →
          ((s.core c).stw.csrVal 0x304).testBit 7 = true → (t.polder (polderOf c)).wake = some (s.now, 3)))
  ∧ ((∀ (c w len : Nat) (sto : Bool) (l : List (Nat × List Byte)) (s : State), s.settled → s.bankFinds = [] →
      fetches s c [] w len l → decodeRv w = .wrs sto →
      ((∃ a, (s.core c).stw.monitor = some (a, false)) → enabledInterrupts s c = 0 →
        ∃ t, exec (if sto then .wrsSto c else .wrsNto c) s = .next t ∧ onlyCore c s t
          ∧ (t.core c).stw = { (s.core c).stw with icache := l, wait := .wrs sto s.now })
      ∧ ((s.core c).stw.monitor = none ∨ (∃ a, (s.core c).stw.monitor = some (a, true)) ∨ enabledInterrupts s c ≠ 0 →
        ∃ t, exec (if sto then .wrsSto c else .wrsNto c) s = .next t ∧ (∀ d ≠ c, t.core d = s.core d)
          ∧ t = { s with cores := t.cores, slu := t.slu, mons := s.mons.filter (·.core ≠ c) }
          ∧ (t.core c).stw = { (s.core c).stw.retire len with icache := l, monitor := none }))
    ∧ (∀ (c : Nat) (s : State), s.settled → wrsWakeDue s c → ∃ t, exec (.wrsWake c) s = .next t
      ∧ (∀ d ≠ c, t.core d = s.core d) ∧ t = { s with cores := t.cores, slu := t.slu, mons := s.mons.filter (·.core ≠ c) }
      ∧ (t.core c).stw = { (s.core c).stw.retire 4 with monitor := none, wait := .nothing })
    ∧ ∀ (c : Nat) (s : State), s.settled → s.live → c < 10240 → wrsLimitDue s c → ∃ t, exec (.wrsLimitExpiry c) s = .next t
      ∧ ((s.polder (polderOf c)).state = 0 → (∀ d ≠ c, t.core d = s.core d)
        ∧ t = { s with cores := t.cores, slu := t.slu, mons := s.mons.filter (·.core ≠ c) }
        ∧ (t.core c).stw = { (s.core c).stw.retire 4 with monitor := none, wait := .nothing })
      ∧ ((s.polder (polderOf c)).state ≠ 0 → (s.polder (polderOf c)).wake = none →
        t = { s with slu := t.slu } ∧ (t.polder (polderOf c)).wake = some (s.now, 3)))

/-- R168: an instruction that computes writes its result to x[rd], which discards it for x0, and moves past itself; a taken
branch goes to its target; FENCE.I empties the instruction cache. Memory and every other core stand, and words of core SRAM
in error that nothing has read stay in error.
Completion: under these conditions on the state and the operands alone, exec answers the next state described for
stewardInstruction and fenceI. -/
def Obligations.StewardArithmetic : Prop :=
  ∀ (c w len : Nat) (found : List BankFind) (l : List (Nat × List Byte)) (s : State), s.settled → s.bankFinds = [] →
    fetches s c found w len l →
    (∀ op rd a b, decodeRv w = .reg op rd a b → ∃ t, exec (.stewardInstruction c found) s = .next t
      ∧ onlyCore c { s with bankFinds := found } t
      ∧ (t.core c).stw = { ((s.core c).stw.setX rd (aluDo op ((s.core c).stw.get a) ((s.core c).stw.get b))).retire len
          with icache := l })
    ∧ (∀ op rd a v, decodeRv w = .imm op rd a v → ∃ t, exec (.stewardInstruction c found) s = .next t
      ∧ onlyCore c { s with bankFinds := found } t
      ∧ (t.core c).stw = { ((s.core c).stw.setX rd (aluDo op ((s.core c).stw.get a) v)).retire len with icache := l })
    ∧ (∀ k a b off, decodeRv w = .branch k a b off → ∃ t, exec (.stewardInstruction c found) s = .next t
      ∧ onlyCore c { s with bankFinds := found } t ∧ (t.core c).stw.x = (s.core c).stw.x
      ∧ (t.core c).stw.pc = (s.core c).stw.pc + (if condHolds k ((s.core c).stw.get a) ((s.core c).stw.get b) then off
          else BitVec.ofNat 64 len))
    ∧ (decodeRv w = .fenceI → found = [] → ∃ t, exec (.fenceI c) s = .next t ∧ onlyCore c s t
      ∧ (t.core c).stw = { (s.core c).stw.retire len with icache := [] })
    ∧ (decodeRv w = .ecall → (s.core c).stw.csrVal 0x305 ≠ 0 → ∃ t, exec (.stewardInstruction c found) s = .next t
      ∧ onlyCore c { s with bankFinds := found } t ∧ (t.core c).stw.user = false
        ∧ (t.core c).stw.csrVal 0x341 = (s.core c).stw.pc.toNat
      ∧ (t.core c).stw.csrVal 0x342 = (if (s.core c).stw.user then 8 else 11))

/-- R169: a load, store, AMO, LR or SC of a steward on its own core's SRAM reads or updates the bytes there, little-endian;
an AMO leaves the old value in x[rd]; LR takes the reservation of the aligned 8-byte word, any update of the word ends it,
and SC writes and yields 0 where it stands and yields 1 and writes nothing where it does not. The instruction then completes
and moves past itself; nothing else changes.
Completion: under these conditions on the state and the operands alone, exec answers the next state described for
stewardLoad, stewardStore, stewardAmo, lr and sc. -/
def Obligations.StewardMemory : Prop :=
  ∀ (c w len rd rs n o : Nat) (l : List (Nat × List Byte)) (s : State), s.settled → s.bankFinds = [] →
    (∀ found off sg, fetches s c found w len l → decodeRv w = .load rd rs off n sg →
      inOwnSram s c ((s.core c).stw.get rs + off).toNat n o 0 →
      bankBad { s with bankFinds := found } (sramAddr c o) n = none →
      ∃ t, exec (.stewardLoad c found) s = .next t ∧ (∀ d ≠ c, t.core d = s.core d)
        ∧ t = { s with cores := t.cores, slu := t.slu, evt := { s.evt with sramSeep := t.evt.sramSeep }
                       bankFinds := found.filter fun f => f.uncorrectable || !bankMet (sramAddr c o) n f }
        ∧ (t.core c).stw = { ((s.core c).stw.setX rd (loadValue n sg (s.mem.read (sramAddr c o) n))).retire len with
            icache := l, lrAway := false })
    ∧ (∀ src off, fetches s c [] w len l → decodeRv w = .store rs src off n →
      inOwnSram s c ((s.core c).stw.get rs + off).toNat n o 1 → unwatched s (sramAddr c o) n →
      ∃ t, exec (.stewardStore c) s = .next t ∧ (∀ d ≠ c, t.core d = s.core d)
        ∧ t = { s with cores := t.cores, slu := t.slu, mem := t.mem, resv := t.resv }
        ∧ t.mem = s.mem.write (sramAddr c o) (leBytes n ((s.core c).stw.get src).toNat)
        ∧ t.resv = s.resv.filter (fun r => !overlaps r.2 8 (sramAddr c o) n)
        ∧ (t.core c).stw = { (s.core c).stw.retire len with icache := l, lrAway := false })
    ∧ (∀ found op src, fetches s c found w len l → decodeRv w = .amo op rd rs src n →
      inOwnSram s c ((s.core c).stw.get rs).toNat n o 1 → unwatched s (sramAddr c o) n →
      bankBad { s with bankFinds := found } (sramAddr c o) n = none →
      ∃ t, exec (.stewardAmo c found) s = .next t ∧ (∀ d ≠ c, t.core d = s.core d)
        ∧ t = { s with cores := t.cores, slu := t.slu, mem := t.mem, resv := t.resv
                       evt := { s.evt with sramSeep := t.evt.sramSeep }
                       bankFinds := found.filter fun f => f.uncorrectable || !bankMet (sramAddr c o) n f }
        ∧ t.mem = s.mem.write (sramAddr c o) (leBytes n (amoResult op.acc n (leNat (s.mem.read (sramAddr c o) n))
          (((s.core c).stw.get src).toNat % 2 ^ (8 * n))))
        ∧ t.resv = s.resv.filter (fun r => !overlaps r.2 8 (sramAddr c o) n)
        ∧ (t.core c).stw = { ((s.core c).stw.setX rd (loadValue n true (s.mem.read (sramAddr c o) n))).retire len with
            icache := l, lrAway := false })
    ∧ (∀ found, fetches s c found w len l → decodeRv w = .lr rd rs n →
      inOwnSram s c ((s.core c).stw.get rs).toNat n o 0 → bankBad { s with bankFinds := found } (sramAddr c o) n = none →
      ∃ t, exec (.lr c found) s = .next t ∧ (∀ d ≠ c, t.core d = s.core d)
        ∧ t = { s with cores := t.cores, slu := t.slu, resv := t.resv
                       evt := { s.evt with sramSeep := t.evt.sramSeep }
                       bankFinds := found.filter fun f => f.uncorrectable || !bankMet (sramAddr c o) n f }
        ∧ t.resv = s.resv.filter (·.1 ≠ c) ++ [(c, alignDown (sramAddr c o) 8)]
        ∧ (t.core c).stw = { ((s.core c).stw.setX rd (loadValue n true (s.mem.read (sramAddr c o) n))).retire len with
            icache := l, lrAway := false })
    ∧ ∀ src, fetches s c [] w len l → decodeRv w = .sc rd rs src n →
      inOwnSram s c ((s.core c).stw.get rs).toNat n o 1 → unwatched s (sramAddr c o) n →
      ∃ t, exec (.sc c) s = .next t ∧ (∀ d ≠ c, t.core d = s.core d)
        ∧ t = { s with cores := t.cores, slu := t.slu, mem := t.mem, resv := t.resv }
        ∧ ((c, alignDown (sramAddr c o) 8) ∈ s.resv →
          t.mem = s.mem.write (sramAddr c o) (leBytes n (((s.core c).stw.get src).toNat % 2 ^ (8 * n)))
          ∧ t.resv = (s.resv.filter (·.1 ≠ c)).filter (fun r => !overlaps r.2 8 (sramAddr c o) n)
          ∧ (t.core c).stw = { ((s.core c).stw.setX rd 0).retire len with icache := l, lrAway := false })
        ∧ ((c, alignDown (sramAddr c o) 8) ∉ s.resv → t.mem = s.mem ∧ t.resv = s.resv.filter (·.1 ≠ c)
          ∧ (t.core c).stw = { ((s.core c).stw.setX rd 1).retire len with icache := l, lrAway := false })

/-- R177: the store of the last word of a record pushes the staging buffer into the command coil where that has room;
against a full coil it is refused where an executor is halted and else stalls, and pushes nothing until the stall ends.
R178: a restart discards what has faulted in the halted executor, clears its halt and counts it in DONE; a flush
discards the records of the coil and what is staged, each counted in DONE, and leaves what runs.
Completion: under these conditions on the state and the operands alone, exec answers the next state described for
push, pushStallRelease, restartArrays, restartSidePath, restart and flush. -/
def Obligations.EnginePorts : Prop :=
  ((∀ (who : Issuer) (c p : Nat) (v : Word) (s : State), s.settled → s.live → c < 10240 → p < 3 →
      mayStore s who (pageBase (.core c) + (0x1000 + 0x400 * p + 8 * (recordWords p - 1))) (leBytes 8 v.toNat) →
      ∃ t, exec (.push who c p 8 v) s = .next t
        ∧ (portRoom s c p → onlyCore c s t ∧ t.eport c p = { s.eport c p with
            stage := put (s.eport c p).stage (recordWords p - 1) v
            coil := (s.eport c p).coil ++ [(put (s.eport c p).stage (recordWords p - 1) v).take (recordWords p)]
            pushed := ((s.eport c p).pushed + 1) % 2 ^ 64 })
        ∧ (¬ portRoom s c p → portHalted s c p → t = { s with evt := t.evt, slu := t.slu })
        ∧ (¬ portRoom s c p → ¬ portHalted s c p → onlyCore c s t ∧ t.eport c p = s.eport c p
          ∧ ∃ x, (t.core c).stalls = (s.core c).stalls ++ [x] ∧ x.port = p ∧ x.val = v))
    ∧ ∀ (c : Nat) (x : PushStall) (s : State), s.settled → s.awake c → stallDue s c = some x → x.port < 3 → x.width = 8 →
      x.req.cont = .none → portRoom s c x.port → ∃ t, exec (.pushStallRelease c) s = .next t ∧ onlyCore c s t
        ∧ (t.core c).stalls = (s.core c).stalls.erase x ∧ t.eport c x.port = { s.eport c x.port with
            stage := put (s.eport c x.port).stage (recordWords x.port - 1) x.val
            coil := (s.eport c x.port).coil
              ++ [(put (s.eport c x.port).stage (recordWords x.port - 1) x.val).take (recordWords x.port)]
            pushed := ((s.eport c x.port).pushed + 1) % 2 ^ 64 })
  ∧ (∀ (who : Issuer) (c : Nat) (s : State), s.settled → s.live → c < 10240 →
      (∀ v p, mayStore s who (pageBase (.core c) + (0x1000 + 0x400 * p + 0x88)) (leBytes 8 v)) →
      ((s.core c).arr.halt = true → ∃ t, exec (.restartArrays who c) s = .next t ∧ onlyCore c s t
        ∧ (t.core c).arr = { (s.core c).arr with
            halt := false, faulted := []
            run := (s.core c).arr.run.filter fun x => !(s.core c).arr.faulted.contains x.seq
            fin := (s.core c).arr.fin.filter fun x => !(s.core c).arr.faulted.contains x.seq
            shadow := if (s.core c).arr.run.any fun x => !(s.core c).arr.faulted.contains x.seq then (s.core c).arr.shadow
              else none }
        ∧ (t.core c).mx.done = ((s.core c).mx.done + (s.core c).arr.faulted.length) % 2 ^ 64
        ∧ (t.core c).mx.coil = (s.core c).mx.coil
        ∧ ∀ f, (s.core c).mxFault = some f → f.testBit 16 = false → (t.core c).mxFault = none)
      ∧ ((s.core c).sid.halt = true → ∃ t, exec (.restartSidePath who c) s = .next t ∧ onlyCore c s t
        ∧ (t.core c).sid = { (s.core c).sid with halt := false, run := none, written := false }
        ∧ (t.core c).mx.done = ((s.core c).mx.done + 1) % 2 ^ 64 ∧ (t.core c).arr = (s.core c).arr)
      ∧ ((s.core c).vec.halt = true → ∃ t, exec (.restart who c) s = .next t ∧ onlyCore c s t
        ∧ (t.core c).vec = { (s.core c).vec with halt := false, fault := none, run := none }
        ∧ (t.core c).vx.done = ((s.core c).vx.done + 1) % 2 ^ 64)
      ∧ (∃ t, exec (.flush who c 0) s = .next t ∧ (t.core c).mx.coil = [] ∧ (t.core c).arr.staged = none
        ∧ (t.core c).sid.staged = none ∧ (t.core c).arr.run = (s.core c).arr.run ∧ (t.core c).sid.run = (s.core c).sid.run
        ∧ (t.core c).mx.done = ((s.core c).mx.done + ((s.core c).mx.coil.length + b2n (s.core c).arr.staged.isSome
          + b2n (s.core c).sid.staged.isSome)) % 2 ^ 64
        ∧ (∀ d ≠ c, t.core d = s.core d) ∧ t = { s with cores := t.cores, slu := t.slu, waits := t.waits })
      ∧ ∃ t, exec (.flush who c 1) s = .next t ∧ (t.core c).vx.coil = [] ∧ (t.core c).vec.staged = none
        ∧ (t.core c).vec.run = (s.core c).vec.run
        ∧ (t.core c).vx.done = ((s.core c).vx.done + ((s.core c).vx.coil.length + b2n (s.core c).vec.staged.isSome)) % 2 ^ 64
        ∧ (∀ d ≠ c, t.core d = s.core d) ∧ t = { s with cores := t.cores, slu := t.slu, waits := t.waits })

/-! ## Matrix arrays and side path (chapters 2 to 4) -/

/-- R87, R90, R81: the head record of the coil moves to the free slot of its executor; one that breaks R90 or the tally
chain is rejected with MATRIX_FORMAT and counted in DONE, and has no other effect. A record with a wait registers it.
R87, R89, R81: an executor that is free takes its staged record once the wait holds: the record runs under a number of
its own and the hold record before it is used up; one that breaks the tally chain is rejected. Where the wait's read has
failed, the executor halts with the record.
Completion: under these conditions on the state and the operands alone, exec answers the next state described for
matrixRecordStage and matrixRecordStart. -/
def Obligations.MatrixRecordBegins : Prop :=
  (∀ (c : Nat) (w : List Word) (rest : List (List Word)) (s : State), s.settled → s.awake c →
      (s.page (.core c)).pend = [] → (s.core c).mx.coil = w :: rest → mxStageDue s c →
      (mxFormatBad s w ∨ ((MRec.of w).side = false ∧ mxChainBad w (mxPred (s.core c).arr)) →
        ∃ t, exec (.matrixRecordStage c) s = .next t ∧ (∀ d ≠ c, t.core d = s.core d)
          ∧ t.core c = { s.core c with mx := { (s.core c).mx with
              coil := rest, read := ((s.core c).mx.read + 1) % 32, done := ((s.core c).mx.done + 1) % 2 ^ 64 } }
          ∧ t = { s with cores := t.cores, slu := t.slu, evt := t.evt }
          ∧ t.evt = (raiseEv (.core c) evMatrixFormat (detTag (MRec.of w).tag (b2n (MRec.of w).side) 0 0) s).evt)
      ∧ (mxFormatBad s w = false → ((MRec.of w).side = false → mxChainBad w (mxPred (s.core c).arr) = false) →
        ∃ t, exec (.matrixRecordStage c) s = .next t ∧ (∀ d ≠ c, t.core d = s.core d)
          ∧ t = { s with cores := t.cores, slu := t.slu, waits := t.waits }
          ∧ (t.core c).mx = { (s.core c).mx with coil := rest, read := ((s.core c).mx.read + 1) % 32 }
          ∧ ((MRec.of w).side = true → t.core c = { s.core c with mx := (t.core c).mx
                                                                  sid := { (s.core c).sid with staged := some w
                                                                                               t0 := s.now, late := false } })
          ∧ ((MRec.of w).side = false → t.core c = { s.core c with mx := (t.core c).mx
                                                                   arr := { (s.core c).arr with staged := some w
                                                                                                t0 := s.now, late := false } })
          ∧ ((MRec.of w).waitEn = false → t.waits = s.waits)
          ∧ ∀ key, (MRec.of w).waitEn = true → homeOf s (localOf (MRec.of w).waitAddr) = .sync key →
            ∃ m, t.waits = s.waits.filter (fun x => !(x.core == c && x.waiter == b2n (MRec.of w).side))
              ++ [⟨c, b2n (MRec.of w).side, key, (MRec.of w).waitValue, m⟩]))
  ∧ ((∀ (c : Nat) (w : List Word) (s : State), s.settled → s.awake c → (s.page (.core c)).pend = [] →
      (s.core c).arr.staged = some w → (s.core c).arr.run = none → (s.core c).arr.halt = false →
      (mxWait s c w = .holds → mxChainBad w (s.core c).arr.held = false →
        ∃ t, exec (.matrixRecordStart c false) s = .next t ∧ (∀ d ≠ c, t.core d = s.core d)
          ∧ t = { s with cores := t.cores, slu := t.slu, evt := t.evt, waits := t.waits }
          ∧ t.core c = { s.core c with mxActive := (t.core c).mxActive, arr := { (s.core c).arr with
              staged := none, late := false, run := some { words := w, seq := (s.core c).arr.seq }
              seq := (s.core c).arr.seq + 1, tag := (MRec.of w).tag, held := none } }
          ∧ t.waits = s.waits.filter (fun x => !(x.core == c && x.waiter == 0))
          ∧ (mxWaitOverdue s c false = false → t.evt = s.evt))
      ∧ (mxWait s c w = .holds → mxChainBad w (s.core c).arr.held = true → mxWaitOverdue s c false = false →
        ∃ t, exec (.matrixRecordStart c false) s = .next t
          ∧ (t.core c).arr = { (s.core c).arr with staged := none, late := false }
          ∧ (t.core c).mx.done = ((s.core c).mx.done + 1) % 2 ^ 64
          ∧ t.evt = (raiseEv (.core c) evMatrixFormat (detTag (MRec.of w).tag (b2n (MRec.of w).side) 0 0) s).evt)
      ∧ ∀ code, mxWait s c w = .failed code → ∃ t, exec (.matrixRecordStart c false) s = .next t
        ∧ (t.core c).arr.halt = true ∧ (t.core c).arr.staged = none ∧ (t.core c).mx = (s.core c).mx ∧ t.mem = s.mem)
    ∧ ∀ (c : Nat) (w : List Word) (s : State), s.settled → s.awake c → (s.page (.core c)).pend = [] →
      (s.core c).sid.staged = some w → (s.core c).sid.run = none → (s.core c).sid.halt = false →
      (mxWait s c w = .holds → ∃ t, exec (.matrixRecordStart c true) s = .next t ∧ (∀ d ≠ c, t.core d = s.core d)
        ∧ t = { s with cores := t.cores, slu := t.slu, evt := t.evt, waits := t.waits }
        ∧ t.core c = { s.core c with sid := { (s.core c).sid with
            staged := none, late := false, run := some w, written := false, tag := (MRec.of w).tag } }
        ∧ (mxWaitOverdue s c true = false → t.evt = s.evt))
      ∧ ∀ code, mxWait s c w = .failed code → ∃ t, exec (.matrixRecordStart c true) s = .next t
        ∧ (t.core c).sid.halt = true ∧ (t.core c).sid.staged = none ∧ (t.core c).sid.run = some w
        ∧ (t.core c).arr = (s.core c).arr ∧ (t.core c).mx = (s.core c).mx ∧ t.mem = s.mem)

/-- R70 to R73, R106, R54: the fill path reads every tile of the next set, its value plane, its code plane where it is
sparse and its side list where the record has them, into the shadows; a tile whose codes or list break their rules halts the
arrays instead.
R50, R73, R74, R78, R79: a swap runs the passes of the tile set in the shadows: every row of the block adds the exact
products of its activations with the set to its tally, which the first pass of an output begins anew; after the last pass of
a block the tally goes to the drain, or is held, and after the record's last the record is done with the arrays.
Completion: under these conditions on the state and the operands alone, exec answers the next state described for
tileSetFill and swap. -/
def Obligations.TileSetsAndPasses : Prop :=
  (∀ (c : Nat) (x : MxRun) (s : State), s.settled → s.awake c → s.bankFinds = [] → fillDue s c →
      (s.core c).arr.run = some x →
      (∀ tiles, tiles = ((MRec.of x.words).setTiles ((MRec.of x.words).place x.fillAt).2.1
          ((MRec.of x.words).place x.fillAt).2.2).map (storedTile s c (MRec.of x.words)) →
        ((∀ y ∈ tiles, tileGood (MRec.of x.words) y) → ∃ t, exec (.tileSetFill c []) s = .next t
          ∧ (∀ d ≠ c, t.core d = s.core d)
          ∧ t = { s with cores := t.cores, slu := t.slu, evt := { s.evt with sramSeep := t.evt.sramSeep } }
          ∧ t.core c = { s.core c with arr := { (s.core c).arr with
              run := some { x with fillAt := x.fillAt + 1 }
              shadow := some ⟨x.fillAt, tiles.map fun y => (y.1, y.2.1, sideUsed (MRec.of x.words) y)⟩
              pend := if (MRec.of x.words).sideList
                then (s.core c).arr.pend ++ [⟨x.words, x.seq, x.fillAt, tiles.map (sideUsed (MRec.of x.words))⟩]
                else (s.core c).arr.pend } })
        ∧ ((∃ y ∈ tiles, ¬ tileGood (MRec.of x.words) y) → ∃ t, exec (.tileSetFill c []) s = .next t
          ∧ (t.core c).arr.halt = true ∧ (t.core c).arr.shadow = none ∧ (t.core c).mx = (s.core c).mx
          ∧ (t.core c).mxFault.isSome)))
  ∧ (∀ (c : Nat) (x : MxRun) (set : TileSet) (b ns kt : Nat) (r : MRec) (tally : List (List TallyEl)) (s : State),
      s.settled → s.awake c → s.bankFinds = [] → swapDue s c → (s.core c).arr.run = some x →
      (s.core c).arr.shadow = some set →
      r = MRec.of x.words → (b, ns, kt) = r.place x.passAt →
      tally = ((upto (r.blockRows b)).map fun i =>
        tallyRow (kt == 0 && !r.tallyIn) (nth [] (s.core c).arr.tally i)
          ((if r.limb then passLimbs r else passRow r) (set.tiles.map fun t => tileRowsOf r t.1 t.2.1)
            ((upto (16 * r.e)).map fun j =>
              sext (actCode s c r (b * r.mb + i) (kt * 16 * r.e + j)) r.actFmt.width))) →
      ∃ t, exec (.swap c []) s = .next t ∧ (∀ d ≠ c, t.core d = s.core d)
        ∧ t = { s with cores := t.cores, slu := t.slu, evt := { s.evt with sramSeep := t.evt.sramSeep } }
        ∧ t.core c = { s.core c with arr := (t.core c).arr } ∧ (t.core c).arr.shadow = none
        ∧ (t.core c).arr.broadcast
          = ((s.core c).arr.broadcast + r.blockRows b * (if r.limb then 2 else 1)) % 2 ^ 64
        ∧ (kt + 1 ≠ r.kTiles ∨ r.tallyOut = false → (t.core c).arr.tally = tally
          ∧ (t.core c).arr.drain = (s.core c).arr.drain)
        ∧ (kt + 1 = r.kTiles → r.tallyOut = true →
          (t.core c).arr.drain = some ⟨x.words, x.seq, b * r.nSets + ns, tally⟩ ∧ (t.core c).arr.tally = [])
        ∧ (kt + 1 = r.kTiles → r.tallyOut = false → (t.core c).arr.held = some x.words)
        ∧ (x.passAt + 1 = r.sets → (t.core c).arr.run = none
          ∧ (t.core c).arr.fin = some { x with passAt := x.passAt + 1 })
        ∧ (x.passAt + 1 ≠ r.sets → (t.core c).arr.run = some { x with passAt := x.passAt + 1 }
          ∧ (t.core c).arr.fin = (s.core c).arr.fin))

/-- R56, R79, R80: the drain writes the rows of the finished block, dequantized, at the record's output, row i of block b at
OUT_OFF + (b × MB + i) × OUT_STRIDE, empties the side store and counts what was saturated. A TALLY_OVF is recorded only
where an element has overflowed. No other byte of memory changes, and what watches the words written is told.
R55, R84: the work of the side lists of a block takes its tile sets off the pending work and leaves the tally alone; an
entry adds the FP32 product of the weight and each row's activation to the sum of its column.
R85, R86: the side path writes each row of its record's output and goes on to complete it; nothing else of the core and
no other byte of memory changes.
Completion: under these conditions on the state and the operands alone, exec answers the next state described for
drain, sideListWork and sideRecord. -/
def Obligations.BlocksDrain : Prop :=
  (∀ (c b ns : Nat) (d : MxDrain) (r : MRec) (s : State), s.settled → s.awake c → s.bankFinds = [] → drainDue s c →
      (s.core c).arr.drain = some d → r = MRec.of d.words → b = d.block / r.nSets → ns = d.block % r.nSets →
      ∃ t, exec (.drain c []) s = .next t ∧ watchersTold s t c
        ∧ t = { s with cores := t.cores, slu := t.slu, evt := t.evt, pages := t.pages, mem := t.mem, resv := t.resv
                       mons := t.mons, waits := t.waits }
        ∧ t.mem = (upto (r.blockRows b)).foldl (fun m i =>
            m.write (sramAddr c (r.outOff + (b * r.mb + i) * r.outStride + ns * r.setCols * r.z))
              (drainRow s c r b ns i (nth [] d.tally i) (nth [] (s.core c).arr.sums i) (s.core c).arr.cols).1) s.mem
        ∧ (∀ a, (∀ i < r.blockRows b,
            overlaps (sramAddr c (r.outOff + (b * r.mb + i) * r.outStride + ns * r.setCols * r.z)) (r.setCols * r.z) a 1
              = false) → t.mem.get a = s.mem.get a)
        ∧ (t.core c).arr.drain = none ∧ (t.core c).arr.sums = [] ∧ (t.core c).arr.cols = []
        ∧ (t.core c).mx = (s.core c).mx ∧ (t.core c).arr.tally = (s.core c).arr.tally
        ∧ (overflowed r d.tally = [] → t.pages = s.pages))
  ∧ (∀ (c : Nat) (s : State), s.settled → s.awake c → s.bankFinds = [] → sideWork (s.core c).arr ≠ [] →
      ∃ t, exec (.sideListWork c []) s = .next t ∧ (∀ d ≠ c, t.core d = s.core d)
        ∧ t = { s with cores := t.cores, slu := t.slu, evt := { s.evt with sramSeep := t.evt.sramSeep } }
        ∧ (t.core c).arr = { (s.core c).arr with
            pend := (s.core c).arr.pend.filter (fun p => !(sideWork (s.core c).arr).contains p)
            sums := (t.core c).arr.sums, cols := (t.core c).arr.cols }
        ∧ ∀ p index value col k, sideWork (s.core c).arr = [p] → p.lists = [[(index, value)]] →
          (col, k) = sidePlace (MRec.of p.words) ((MRec.of p.words).place p.at').2.2 0 index →
          (t.core c).arr.sums = sideApply s c (MRec.of p.words) ((MRec.of p.words).place p.at').1 col k value
            (s.core c).arr.sums
          ∧ (t.core c).arr.cols = ((s.core c).arr.cols ++ [col]).eraseDups)
  ∧ (∀ (c : Nat) (w : List Word) (r : MRec) (s : State), s.settled → s.awake c → s.bankFinds = [] →
      (s.core c).sid.run = some w → (s.core c).sid.written = false → (s.core c).sid.halt = false → s.gov.mxDuty ≠ 0 →
      r = MRec.of w → r.side → ∃ t, exec (.sideRecord c []) s = .next t ∧ watchersTold s t c
        ∧ t = { s with cores := t.cores, slu := t.slu, evt := t.evt, mem := t.mem, resv := t.resv
                       mons := t.mons, waits := t.waits }
        ∧ (t.core c).sid = { (s.core c).sid with written := true } ∧ (t.core c).arr = (s.core c).arr
        ∧ (t.core c).mx = (s.core c).mx
        ∧ ∀ a, (∀ m < r.m, overlaps (sramAddr c (r.outOff + m * r.outStride)) (r.n * r.z) a 1 = false) →
          t.mem.get a = s.mem.get a)

/-- R89, R32: a record completes: it leaves its executor and is counted in DONE, and a completion signal to a word of its
core adds SIG_ADD to the word.
R183, R210: a wait that outlasts ENGINE_WAIT raises SYNC_WAIT_TIMEOUT once, and goes on.
Completion: under these conditions on the state and the operands alone, exec answers the next state described for
matrixRecordComplete and syncWaitTimeout. -/
def Obligations.MatrixRecordEnds : Prop :=
  (∀ (c : Nat) (side : Bool) (w : List Word) (s : State), s.settled → s.awake c → (s.page (.core c)).pend = [] →
      s.bankFinds = [] → mxCompleteDue s c side →
      w = (if side then (s.core c).sid.run.getD [] else ((s.core c).arr.fin.map (·.words)).getD []) →
      ((MRec.of w).sigEn = false → ∃ t, exec (.matrixRecordComplete c side) s = .next t ∧ onlyCore c s t
        ∧ t.core c = { s.core c with mx := { (s.core c).mx with done := ((s.core c).mx.done + 1) % 2 ^ 64 }
                                     mxActive := (t.core c).mxActive
                                     arr := if side then (s.core c).arr else { (s.core c).arr with fin := none }
                                     sid := if side then { (s.core c).sid with run := none, written := false }
                                       else (s.core c).sid })
      ∧ ∀ o, (MRec.of w).sigEn = true → signalWord s c (MRec.of w).sigAddr (MRec.of w).sigAdd o →
        ∃ t, exec (.matrixRecordComplete c side) s = .next t ∧ signalled s t c (MRec.of w).sigAdd o
          ∧ (t.core c).mx.done = ((s.core c).mx.done + 1) % 2 ^ 64
          ∧ (if side then (t.core c).sid.run = none else (t.core c).arr.fin = none))
  ∧ (∀ (c : Nat) (s : State), s.settled → s.live → c < 10240 →
      (∀ w, mxWaitOverdue s c false → (s.core c).arr.staged = some w → ∃ t, exec (.syncWaitTimeout c .arrays) s = .next t
        ∧ (∀ d ≠ c, t.core d = s.core d) ∧ t = { s with cores := t.cores, slu := t.slu, evt := t.evt }
        ∧ t.core c = { s.core c with arr := { (s.core c).arr with late := true } }
        ∧ t.evt = (raiseEv (.core c) evSyncWaitTimeout (detTag (MRec.of w).tag 0 0 0) s).evt)
      ∧ (∀ w, mxWaitOverdue s c true → (s.core c).sid.staged = some w → ∃ t, exec (.syncWaitTimeout c .side) s = .next t
        ∧ (∀ d ≠ c, t.core d = s.core d) ∧ t = { s with cores := t.cores, slu := t.slu, evt := t.evt }
        ∧ t.core c = { s.core c with sid := { (s.core c).sid with late := true } }
        ∧ t.evt = (raiseEv (.core c) evSyncWaitTimeout (detTag (MRec.of w).tag 1 0 0) s).evt)
      ∧ (∀ w, vxWaitOverdue s c → (s.core c).vec.staged = some w → ∃ t, exec (.syncWaitTimeout c .vector) s = .next t
        ∧ (∀ d ≠ c, t.core d = s.core d) ∧ t = { s with cores := t.cores, slu := t.slu, evt := t.evt }
        ∧ t.core c = { s.core c with vec := { (s.core c).vec with late := true } }
        ∧ t.evt = (vxEvent c evSyncWaitTimeout (VRec.of w).tag 0 s).evt)
      ∧ ∀ n, strandWaitOverdue s c n → ∃ t, exec (.syncWaitTimeout c (.strand n)) s = .next t
        ∧ (∀ d ≠ c, t.core d = s.core d) ∧ t = { s with cores := t.cores, slu := t.slu, evt := t.evt }
        ∧ t.ctx c n = { s.ctx c n with late := true } ∧ (∀ m ≠ n, t.ctx c m = s.ctx c m)
        ∧ t.evt = (raiseEv (.core c) evSyncWaitTimeout (detTag (s.ctx c n).tag 3 n (s.ctx c n).pos) s).evt)

/-! ## Vector engine, SFU and coils (chapters 5, 6 and 9) -/

/-- R127, R143: the head record of the coil is taken, or rejected with VECTOR_FORMAT and counted in DONE. A staged record
whose wait holds starts when the boundary before it is clear: it runs from row 0, and BELAY of each coil that it alone reads
takes READ; one whose carry or coils no longer fit is rejected then, and one whose wait's read has failed halts the engine.
R143, R251: a record whose last row has passed completes: DONE counts it, RELEASE and BELAY of the coils it read move up
to READ, or to where the record after it began to read, and a signal to a word of its core adds SIG_ADD.
Completion: under these conditions on the state and the operands alone, exec answers the next state described for
chainRecordTake, chainRecordStart and chainRecordComplete. -/
def Obligations.ChainRecords : Prop :=
  ((∀ (c : Nat) (w : List Word) (rest : List (List Word)) (s : State), s.settled → s.awake c →
      (s.page (.core c)).pend = [] → vxTakeDue s c → (s.core c).vx.coil = w :: rest →
      (vxFormatBad s c w (heldAhead (s.core c).vec) = true → ∃ t, exec (.chainRecordTake c) s = .next t
        ∧ (∀ d ≠ c, t.core d = s.core d) ∧ t = { s with cores := t.cores, slu := t.slu, evt := t.evt }
        ∧ t.core c = { s.core c with vx := { (s.core c).vx with
            coil := rest, read := ((s.core c).vx.read + 2) % 32, done := ((s.core c).vx.done + 1) % 2 ^ 64 } }
        ∧ t.evt = (raiseEv (.core c) evVectorFormat (detTag (VRec.of w).tag 2 0 0) s).evt)
      ∧ (vxFormatBad s c w (heldAhead (s.core c).vec) = false → ∃ t, exec (.chainRecordTake c) s = .next t
        ∧ (∀ d ≠ c, t.core d = s.core d) ∧ t = { s with cores := t.cores, slu := t.slu, waits := t.waits }
        ∧ t.core c = { s.core c with vx := { (s.core c).vx with coil := rest, read := ((s.core c).vx.read + 2) % 32 }
                                     vec := { (s.core c).vec with staged := some w, t0 := s.now, late := false } }
        ∧ ((VRec.of w).waitEn = false → t.waits = s.waits)))
    ∧ ∀ (c : Nat) (w : List Word) (s : State), s.settled → s.awake c → vxStartDue s c → (s.page (.core c)).pend = [] →
      (s.core c).vec.staged = some w →
      (vxWait s c (VRec.of w) = .holds →
      carryBad (VRec.of w) (carryKey (s.core c).vec.carry) = false → coilStreamsBad s c (VRec.of w) = false →
      ∃ t, exec (.chainRecordStart c) s = .next t ∧ (∀ d ≠ c, t.core d = s.core d)
        ∧ t = { s with cores := t.cores, slu := t.slu, evt := t.evt, waits := t.waits }
        ∧ t.core c = { s.core c with coils := (t.core c).coils, coilWait := (t.core c).coilWait
                                     vec := (t.core c).vec }
        ∧ (∀ began, began = (coilsRead (VRec.of w)).map (fun n => (n, (s.coil c n).read)) →
          (t.core c).vec = { (s.core c).vec with
            staged := none, late := false, tag := (VRec.of w).tag, run := some { words := w, began := began }
            fin := (s.core c).vec.fin.map fun x => { x with next := began } })
        ∧ (∀ n, n ∉ coilsRead (VRec.of w) → t.coil c n = s.coil c n)
        ∧ (∀ n ∈ coilsRead (VRec.of w), (s.core c).vec.fin = none →
          t.coil c n = { s.coil c n with belay := (s.coil c n).read })
        ∧ (vxWaitOverdue s c = false → t.evt = s.evt))
      ∧ (vxWait s c (VRec.of w) = .holds →
        carryBad (VRec.of w) (carryKey (s.core c).vec.carry) = true ∨ coilStreamsBad s c (VRec.of w) = true →
        vxWaitOverdue s c = false → ∃ t, exec (.chainRecordStart c) s = .next t ∧ (∀ d ≠ c, t.core d = s.core d)
          ∧ t = { s with cores := t.cores, slu := t.slu, evt := t.evt, waits := t.waits }
          ∧ t.core c = { s.core c with vx := { (s.core c).vx with done := ((s.core c).vx.done + 1) % 2 ^ 64 }
                                       vec := { (s.core c).vec with staged := none, late := false } }
          ∧ t.evt = (vxEvent c evVectorFormat (VRec.of w).tag 0 s).evt)
      ∧ ∀ code, vxWait s c (VRec.of w) = .failed code → ∃ t, exec (.chainRecordStart c) s = .next t
        ∧ (t.core c).vec.halt = true ∧ (t.core c).vec.staged = none ∧ (t.core c).vec.carry = none
        ∧ (t.core c).vec.fault = some (vxFaultWord 0 0 0 (VRec.of w).tag) ∧ (t.core c).vx = (s.core c).vx
        ∧ (t.core c).coils = (s.core c).coils ∧ t.mem = s.mem)
  ∧ (∀ (c : Nat) (x : VRun) (s : State), s.settled → s.awake c → (s.page (.core c)).pend = [] → s.bankFinds = [] →
      (s.core c).vec.fin = some x →
      ((VRec.of x.words).sigEn = false → ∃ t, exec (.chainRecordComplete c) s = .next t ∧ onlyCore c s t
        ∧ t.core c = { s.core c with vx := { (s.core c).vx with done := ((s.core c).vx.done + 1) % 2 ^ 64 }
                                     vec := { (s.core c).vec with fin := none }, coils := (t.core c).coils
                                     coilWait := (t.core c).coilWait }
        ∧ (∀ n ∈ coilsRead (VRec.of x.words), alookup n x.next = none →
          t.coil c n = { s.coil c n with release := (s.coil c n).read, belay := (s.coil c n).read })
        ∧ (∀ n ∈ coilsRead (VRec.of x.words), ∀ p, alookup n x.next = some p →
          ptrDiff (coilSize s c n) p (s.coil c n).release ≤ ptrDiff (coilSize s c n) (s.coil c n).read (s.coil c n).release →
          t.coil c n = { s.coil c n with release := p, belay := p })
        ∧ ∀ n, n ∉ coilsRead (VRec.of x.words) → t.coil c n = s.coil c n)
      ∧ ∀ o, (VRec.of x.words).sigEn = true → signalWord s c (VRec.of x.words).sigAddr (VRec.of x.words).sigAdd o →
        ∃ t, exec (.chainRecordComplete c) s = .next t ∧ signalled s t c (VRec.of x.words).sigAdd o
          ∧ (t.core c).vx.done = ((s.core c).vx.done + 1) % 2 ^ 64 ∧ (t.core c).vec.fin = none)

/-- R142, R145, R251: a group of rows that has its data passes, with its results written; one that lacks data is held at the
coil and reads nothing, until it is resumed; one at which the SFU faults, or finds a parity error, halts the engine with the
row, element and slot in CORE_VX_FAULT and the carry lost. Where an output coil lacks room the record is held with what it
owes the coil, and appends it entry by entry as room appears.
R163, R164: a write of CORE_SFU_LOAD queues its load, or is lost as an overrun where eight wait; at a vector record
boundary a queued program that checks is loaded into its slot, and one that does not leaves its slot empty with
SFU_LOAD_BAD.
Completion: under these conditions on the state and the operands alone, exec answers the next state described for
coilStreamResume, chainRow, coreSfuLoad and sfuLoadApply. -/
def Obligations.ChainRowsAndTables : Prop :=
  (∀ (c : Nat) (held : Bool) (parity : Option Nat) (x : VRun) (row : Instr) (s : State), s.settled → s.awake c →
      s.bankFinds = [] → vxRowDue s c held → (s.core c).vec.run = some x →
      row = (if held then .coilStreamResume c [] parity else .chainRow c [] parity) →
      (backlog x = false → (passage c x parity s).1 = .short → ∃ t, exec row s = .next t ∧ onlyCore c s t
        ∧ t.core c = { s.core c with vec := { (s.core c).vec with
            run := some (if held then x else { x with hold := some s.now, late := false }) } })
      ∧ (∀ r element slot code, backlog x = false → (passage c x parity s).1 = .sfu r element slot code →
        ∃ t, exec row s = .next t ∧ watchersTold s t c ∧ (t.core c).vec.halt = true ∧ (t.core c).vec.carry = none
          ∧ (t.core c).vec.fault = some (vxFaultWord r element slot (s.core c).vec.tag)
          ∧ (t.core c).vx = (s.core c).vx ∧ (t.core c).coils = (s.core c).coils)
      ∧ (∀ gs n, backlog x = false → (passage c x parity s).1 = .pass gs n → ∃ t, exec row s = .next t ∧ watchersTold s t c
          ∧ t = { s with cores := t.cores, slu := t.slu, evt := t.evt, mem := t.mem, resv := t.resv
                         mons := t.mons, waits := t.waits }
          ∧ (t.core c).vx = (s.core c).vx ∧ (t.core c).vec.halt = false
          ∧ (n ≠ 0 → (t.core c).satTotal = ((s.core c).satTotal + n) % 2 ^ 64)
          ∧ (∀ y, (t.core c).vec.run = some y → y.words = x.words ∧ y.row = x.row + groupSize (VRec.of x.words) x.row
            ∧ y.hold = if backlog y then some s.now else none)
          ∧ (x.row + groupSize (VRec.of x.words) x.row ≠ (VRec.of x.words).rows → (t.core c).vec.run.isSome
            ∧ (t.core c).vec.fin = (s.core c).vec.fin ∧ (t.core c).vec.carry = (s.core c).vec.carry)
          ∧ (x.row + groupSize (VRec.of x.words) x.row = (VRec.of x.words).rows →
            (∀ y, (t.core c).vec.run = some y → backlog y) ∧ ((t.core c).vec.run = none →
              ∃ y, (t.core c).vec.fin = some y ∧ y.words = x.words)
            ∧ (((VRec.of x.words).strm 3).onCoil = false → ((VRec.of x.words).strm 4).onCoil = false →
              (t.core c).vec.run = none))
          ∧ (((VRec.of x.words).strm 3).onSram = false → ((VRec.of x.words).strm 4).onSram = false → t.mem = s.mem)
          ∧ (((VRec.of x.words).strm 3).onCoil = false → ((VRec.of x.words).strm 4).onCoil = false →
            (t.core c).cmem = (s.core c).cmem))
      ∧ ∀ n bs m y, held = true → backlog x = true → x.out = [(n, bs)] → m = min (bs.length / 64) (free s c n) →
        y = { x with out := [(n, bs.drop (64 * m))] } → ∃ t, exec row s = .next t ∧ (∀ d ≠ c, t.core d = s.core d)
          ∧ t = { s with cores := t.cores, slu := t.slu, evt := t.evt } ∧ (t.core c).vx = (s.core c).vx
          ∧ (t.core c).stw = (s.core c).stw ∧ (∀ k ≠ n, t.coil c k = s.coil c k)
          ∧ (m ≠ 0 → t.coil c n
            = { s.coil c n with write := ((s.coil c n).write + m) % (2 * coilSize s c n) })
          ∧ (64 ≤ bs.length - 64 * m → (t.core c).vec = { (s.core c).vec with run := some y } ∧ t.evt = s.evt)
          ∧ (bs.length - 64 * m < 64 → x.row ≠ (VRec.of x.words).rows →
            (t.core c).vec = { (s.core c).vec with run := some { y with hold := none, late := false } })
          ∧ (bs.length - 64 * m < 64 → x.row = (VRec.of x.words).rows → (t.core c).vec.run = none
            ∧ (t.core c).vec.fin = some { y with left := [], out := [], hold := none, late := false }))
  ∧ ((∀ (who : Issuer) (c : Nat) (v : Word) (s : State), s.settled → s.live → c < 10240 →
      mayWrite s who (.core c) 0x4A0 v.toNat →
      ((s.core c).sfu.queue.length < 8 → ∃ t, exec (.coreSfuLoad who c v) s = .next t
        ∧ (∀ d ≠ c, t.core d = s.core d) ∧ t = { s with cores := t.cores, slu := t.slu, pages := t.pages }
        ∧ t.core c = { s.core c with sfu := { (s.core c).sfu with queue := (s.core c).sfu.queue ++ [v] } })
      ∧ (8 ≤ (s.core c).sfu.queue.length → ∃ t, exec (.coreSfuLoad who c v) s = .next t
        ∧ (∀ d ≠ c, t.core d = s.core d) ∧ (t.core c).sfu.queue = (s.core c).sfu.queue
        ∧ (t.core c).sfu.tables = (s.core c).sfu.tables ∧ (t.core c).sfu.progs = (s.core c).sfu.progs
        ∧ (t.core c).sfu.errCause = 4
        ∧ t = { s with cores := t.cores, slu := t.slu, pages := t.pages, evt := t.evt }))
    ∧ ∀ (c : Nat) (v : Word) (s : State) (bs : List Byte), s.settled → s.awake c → vxBoundary s c →
      s.bankFinds = [] → (s.core c).sfu.queue = [v] → loadKind v.toNat = 1 → bits v.toNat 17 0 % 64 = 0 →
        bits v.toNat 17 0 + 96 ≤ 0x40000 →
      bs = s.mem.read (sramAddr c (bits v.toNat 17 0)) 96 →
      (programCause (bits v.toNat 63 32) bs = 0 → ∃ t, exec (.sfuLoadApply c []) s = .next t
        ∧ (∀ d ≠ c, t.core d = s.core d)
        ∧ t = { s with cores := t.cores, slu := t.slu, evt := { s.evt with sramSeep := t.evt.sramSeep } }
        ∧ t.core c = { s.core c with sfu := { (s.core c).sfu with
            queue := [], progs := aset (loadSlot v.toNat) ((chunks 3 24 bs).map leNat) (s.core c).sfu.progs } })
      ∧ (programCause (bits v.toNat 63 32) bs ≠ 0 → ∃ t, exec (.sfuLoadApply c []) s = .next t
        ∧ (∀ d ≠ c, t.core d = s.core d) ∧ t = { s with cores := t.cores, slu := t.slu, evt := t.evt }
        ∧ (t.core c).sfu.queue = [] ∧ (t.core c).sfu.errCause = programCause (bits v.toNat 63 32) bs
        ∧ alookup (loadSlot v.toNat) (t.core c).sfu.progs = none))

/-- R248, R253: a steward's store to a coil it produces appends 8 B where the coil has room, its load takes the next 8 B
where an entry is readable, and eight of them make an entry; with AUTO_REL the entry read whole is released. An access that
cannot complete waits, until it can or CORE_BOLLARD_CFG.TIMEOUT has passed.
R249, R253, R254: BELAY marks READ, REWIND makes READ the mark again, RELEASE frees what has been read; COMMIT fills a
partly stored entry with zeros and appends it. A command whose side of the coil is not so placed changes no coil.
R255: a coil configuration applies at a vector record boundary and empties its coil; one that breaks the rules leaves
the coil inert, with CFG_ERR and COIL_CFG_BAD.
Completion: under these conditions on the state and the operands alone, exec answers the next state described for
coilDataStore, coilDataLoad, coilAccessResume, coilTimeout, belay, rewind, release, commit and coilCfgApply. -/
def Obligations.Coils : Prop :=
  ((∀ (c n dev : Nat) (v : Word) (s : State), s.settled → s.live → c < 10240 → coilLive s c n → coilProd s c n = 1 →
      barrier s ⟨.steward c, pageBase (.core c) + (0x510 + 0x20 * n), .none, dev⟩ (.store (leBytes 8 v.toNat)) = .clear →
      (0 < free s c n →
        ∃ t, exec (.coilDataStore ⟨.steward c, pageBase (.core c) + (0x510 + 0x20 * n), .none, dev⟩ n v) s = .next t
          ∧ onlyCore c s t
          ∧ t.core c = { s.core c with
              coils := (t.core c).coils, coilWait := (t.core c).coilWait
              cmem := (s.core c).cmem.write (entryAddr s c n (s.coil c n).write + 8 * (s.coil c n).wrOff)
                (leBytes 8 v.toNat) }
          ∧ (∀ m ≠ n, t.coil c m = s.coil c m)
          ∧ ((s.coil c n).wrOff = 7 → t.coil c n = { s.coil c n with
              wrOff := 0, write := ((s.coil c n).write + 1) % (2 * coilSize s c n) })
          ∧ ((s.coil c n).wrOff ≠ 7 → t.coil c n = { s.coil c n with wrOff := (s.coil c n).wrOff + 1 }))
      ∧ (free s c n = 0 →
        ∃ t, exec (.coilDataStore ⟨.steward c, pageBase (.core c) + (0x510 + 0x20 * n), .none, dev⟩ n v) s = .next t
          ∧ onlyCore c s t ∧ t.core c = { s.core c with coilWait := some ⟨n, some v, s.now,
            ⟨.steward c, pageBase (.core c) + (0x510 + 0x20 * n), .none, dev⟩, none⟩ }))
    ∧ (∀ (c n dev rd len a cause : Nat) (s : State), s.settled → s.live → c < 10240 → coilLive s c n →
      coilCons s c n = 1 → 0 < readable s c n → awaits s c len a cause →
      barrier s ⟨.steward c, pageBase (.core c) + (0x510 + 0x20 * n), .toReg c rd 8 false, dev⟩ (.load 8 false) = .clear →
      ∃ t, exec (.coilDataLoad ⟨.steward c, pageBase (.core c) + (0x510 + 0x20 * n), .toReg c rd 8 false, dev⟩ n) s = .next t
        ∧ onlyCore c s t ∧ (t.core c).cmem = (s.core c).cmem
        ∧ (t.core c).stw = { ((s.core c).stw.setX rd (loadValue 8 false ((s.core c).cmem.read
            (entryAddr s c n (s.coil c n).read + 8 * (s.coil c n).rdOff) 8))).retire len with wait := .nothing }
        ∧ (∀ m ≠ n, t.coil c m = s.coil c m)
        ∧ ((s.coil c n).rdOff ≠ 7 → t.coil c n = { s.coil c n with rdOff := (s.coil c n).rdOff + 1 })
        ∧ ((s.coil c n).rdOff = 7 → (t.coil c n).rdOff = 0
          ∧ (t.coil c n).read = ((s.coil c n).read + 1) % (2 * coilSize s c n)
          ∧ (coilAutoRel s c n = true → (t.coil c n).release = (t.coil c n).read)
          ∧ (coilAutoRel s c n = false → (t.coil c n).release = (s.coil c n).release)))
    ∧ ∀ (c : Nat) (w : CoilWait) (s : State), s.settled → s.awake c → (s.core c).coilWait = some w →
      w.req.cont = .none →
      (coilReady s c w.n w.val.isSome → coilInTime s c w → ∃ t, exec (.coilAccessResume c) s = .next t ∧ onlyCore c s t
        ∧ (t.core c).coilWait = none ∧ (t.core c).stw = (s.core c).stw ∧ (∀ m ≠ w.n, t.coil c m = s.coil c m)
        ∧ (∀ v, w.val = some v → (t.core c).cmem = (s.core c).cmem.write
          (entryAddr s c w.n (s.coil c w.n).write + 8 * (s.coil c w.n).wrOff) (leBytes 8 v.toNat)))
      ∧ (w.t0 + s.bollardTimeout c ≤ s.now → coilInTime s c w = false → ∃ t, exec (.coilTimeout c) s = .next t
        ∧ (∀ d ≠ c, t.core d = s.core d) ∧ t.core c = { s.core c with coilWait := none }
        ∧ t = { s with cores := t.cores, slu := t.slu, evt := t.evt }
        ∧ t.evt = (raiseEv (.core c) evCoilTimeout (detUnit w.n 0 0) s).evt))
  ∧ (∀ (who : Issuer) (c n : Nat) (s : State), s.settled → s.live → c < 10240 → 3 ≤ n → n ≤ 15 →
      (∀ v, mayWrite s who (.core c) (0x518 + 0x20 * n) v) →
      (∃ t, exec (.belay who c n) s = .next t ∧ (∀ d ≠ c, t.core d = s.core d)
        ∧ t = { s with cores := t.cores, slu := t.slu, pages := t.pages }
        ∧ t.core c = { s.core c with coils := (t.core c).coils, coilWait := (t.core c).coilWait }
        ∧ (∀ m ≠ n, t.coil c m = s.coil c m)
        ∧ t.coil c n = if consumerMay s c n then { s.coil c n with belay := (s.coil c n).read } else s.coil c n)
      ∧ (∃ t, exec (.rewind who c n) s = .next t ∧ (∀ d ≠ c, t.core d = s.core d)
        ∧ t = { s with cores := t.cores, slu := t.slu, pages := t.pages }
        ∧ t.core c = { s.core c with coils := (t.core c).coils, coilWait := (t.core c).coilWait }
        ∧ (∀ m ≠ n, t.coil c m = s.coil c m)
        ∧ t.coil c n = if consumerMay s c n then { s.coil c n with read := (s.coil c n).belay, rdOff := 0 }
          else s.coil c n)
      ∧ (∃ t, exec (.release who c n) s = .next t ∧ (∀ d ≠ c, t.core d = s.core d)
        ∧ t = { s with cores := t.cores, slu := t.slu, pages := t.pages }
        ∧ t.core c = { s.core c with coils := (t.core c).coils, coilWait := (t.core c).coilWait }
        ∧ (∀ m ≠ n, t.coil c m = s.coil c m)
        ∧ t.coil c n = if consumerMay s c n then
            { s.coil c n with release := (s.coil c n).read, belay := (s.coil c n).read } else s.coil c n)
      ∧ ∃ t, exec (.commit who c n) s = .next t ∧ (∀ d ≠ c, t.core d = s.core d)
        ∧ t = { s with cores := t.cores, slu := t.slu, pages := t.pages }
        ∧ t.core c = { s.core c with coils := (t.core c).coils, cmem := (t.core c).cmem
                                     coilWait := (t.core c).coilWait }
        ∧ (∀ m ≠ n, t.coil c m = s.coil c m)
        ∧ (coilLive s c n → coilProd s c n = 1 → (s.coil c n).wrOff ≠ 0 →
          t.coil c n = { s.coil c n with wrOff := 0, write := ((s.coil c n).write + 1) % (2 * coilSize s c n) }
          ∧ (t.core c).cmem = (s.core c).cmem.write (entryAddr s c n (s.coil c n).write + 8 * (s.coil c n).wrOff)
            (List.replicate (64 - 8 * (s.coil c n).wrOff) 0#8))
        ∧ (¬ (coilLive s c n ∧ coilProd s c n = 1 ∧ (s.coil c n).wrOff ≠ 0) →
          (t.core c).coils = (s.core c).coils ∧ (t.core c).cmem = (s.core c).cmem))
  ∧ (∀ (c n : Nat) (d : Pend) (s u : State), s.settled → s.awake c → vxBoundary s c → 3 ≤ n → n ≤ 15 →
      (s.page (.core c)).pend = [(0x500 + 0x20 * n, d)] → ((s.page (.core c)).hold = false ∨ d.released = true) →
      (s.core c).coilWait = none → u = s.setReg (.core c) (0x500 + 0x20 * n) (pendValue s (.core c) (0x500 + 0x20 * n) d) →
      ∃ t, exec (.coilCfgApply c) s = .next t ∧ (∀ e ≠ c, t.core e = s.core e)
        ∧ t = { s with cores := t.cores, slu := t.slu, pages := t.pages, evt := t.evt }
        ∧ t.core c = { s.core c with coils := (t.core c).coils } ∧ (∀ m ≠ n, t.coil c m = s.coil c m)
        ∧ coilCfg t c n = pendValue s (.core c) (0x500 + 0x20 * n) d ∧ (t.page (.core c)).pend = []
        ∧ t.coil c n = { cfgErr := coilEn u c n && coilBad u c n }
        ∧ (¬ (coilEn u c n && coilBad u c n) → t.evt = s.evt)
        ∧ (coilEn u c n && coilBad u c n → t.evt = (raiseEv (.core c) evCoilCfgBad (detUnit n 0 0) s).evt))

/-! ## Strand engine and presence (chapter 8) -/

/-- R198, R199, R218: the head record takes the lowest free context and waits there with its shape block; a record that
fails a check of R218 is rejected with the check's event, is counted in DONE and frees the context.
R198, R205, R210, R211: a waiting context whose wait holds starts: it runs from position 0, its reference is one period
after the start, and its release count begins at the value of its release word.
Completion: under these conditions on the state and the operands alone, exec answers the next state described for
strandRecordTake and strandStart. -/
def Obligations.StrandBegins : Prop :=
  (∀ (c n : Nat) (w : List Word) (rest : List (List Word)) (sh : List Word) (s : State), s.settled → s.awake c →
      (s.page (.core c)).pend = [] → s.bankFinds = [] → freeContext s c = some n → (s.core c).sx.coil = w :: rest →
      wordBits w 3 17 0 % 64 = 0 → wordBits w 3 17 0 + 128 ≤ 0x40000 →
      sh = (chunks 7 16 (s.mem.read (sramAddr c (wordBits w 3 17 0)) 128)).map (fun b => word (leNat b)) →
      (strandCheck s c (SRec.of w sh) w sh = none → ∃ t, exec (.strandRecordTake c []) s = .next t
        ∧ (∀ d ≠ c, t.core d = s.core d)
        ∧ t = { s with cores := t.cores, slu := t.slu, waits := t.waits, evt := { s.evt with sramSeep := t.evt.sramSeep } }
        ∧ t.core c = { s.core c with sx := { (s.core c).sx with coil := rest, read := ((s.core c).sx.read + 1) % 32 }
                                     ctx := (t.core c).ctx }
        ∧ (∀ m ≠ n, t.ctx c m = s.ctx c m)
        ∧ t.ctx c n = { state := 1, record := w, shape := sh, tag := wordBits w 0 63 48, t0 := s.now
                        nextJob := (s.ctx c n).nextJob }
        ∧ ((SRec.of w sh).waitEn = false → t.waits = s.waits))
      ∧ ∀ code, strandCheck s c (SRec.of w sh) w sh = some code → ∃ t, exec (.strandRecordTake c []) s = .next t
        ∧ (∀ d ≠ c, t.core d = s.core d) ∧ t = { s with cores := t.cores, slu := t.slu, waits := t.waits, evt := t.evt }
        ∧ (t.core c).sx = { (s.core c).sx with
            coil := rest, read := ((s.core c).sx.read + 1) % 32, done := ((s.core c).sx.done + 1) % 2 ^ 64 }
        ∧ (∀ m ≠ n, t.ctx c m = s.ctx c m)
        ∧ t.ctx c n = { tag := wordBits w 0 63 48, nextJob := (s.ctx c n).nextJob }
        ∧ t.evt.inputs = (raiseEv (.core c) code (detTag (wordBits w 0 63 48) 3 n 0) s).evt.inputs)
  ∧ (∀ (c n : Nat) (r0 : Int) (s : State), s.settled → s.awake c → (s.page (.core c)).pend = [] → (s.ctx c n).state = 1 →
      ((s.ctx c n).srec.waitEn = true → waitState c (ctxWaiter n) ((s.ctx c n).who c n) (s.ctx c n).srec.waitAddr
        (s.ctx c n).srec.waitValue s = .holds) →
      (if (s.ctx c n).srec.relEn then engineWord ((s.ctx c n).who c n) (s.ctx c n).srec.relAddr s = some (.ok r0)
        else r0 = 0) →
      ∃ t, exec (.strandStart c n) s = .next t ∧ (∀ d ≠ c, t.core d = s.core d)
        ∧ t = { s with cores := t.cores, slu := t.slu, waits := t.waits, evt := t.evt }
        ∧ t.core c = { s.core c with ctx := (t.core c).ctx } ∧ (∀ m ≠ n, t.ctx c m = s.ctx c m)
        ∧ t.ctx c n = { s.ctx c n with
            state := 2, started := true, r0 := r0, tref := (s.now : Int) + (s.ctx c n).srec.period
            stallAt := s.now, late := false
            pos := if strandNoop s (s.ctx c n).srec then (s.ctx c n).srec.total else 0 }
        ∧ t.waits = s.waits.filter (fun x => !(x.core == c && x.waiter == ctxWaiter n))
        ∧ (strandWaitOverdue s c n = false → t.evt = s.evt))

/-- R200, R206 to R208, R213, R222 to R225: the first context in the order of R213 issues; one request of a strand without
a tile within its core's SRAM takes the elements of its row, in a gather that of its index, up to the end of the source
line, converts them and writes them at the destination of its position, in a scatter that of its index, a scatter-add added
to what stands there; the position moves on. At an index out of range the strand halts with STRAND_INDEX, or under ZERO a
gather writes zeros up to the end of the destination line and a scatter skips the rest of its row.
R243: the free braid goes to the first of the contexts that wait for it, for the tile that begins at its position.
Completion: under these conditions on the state and the operands alone, exec answers the next state described for
strandIssue and braidTile. -/
def Obligations.StrandRequests : Prop :=
  (∀ (c n : Nat) (rest : List Nat) (k : Ctx) (r : SRec) (index : Int) (s : State), s.settled → s.awake c →
      s.bankFinds = [] → issueOrder s c = n :: rest → k = s.ctx c n → r = k.srec → r.braid = 0 → r.comp = 0 →
      index = sext (leNat (s.mem.read (sramAddr c (indexOff r k.pos)) r.indexSize)) (8 * r.indexSize) →
      (∀ (idx : Nat) src dst cnt odd bytes vals sums out, r.relEn = false →
        (r.op = 0 ∧ idx = 0) ∨ (r.op ≠ 0 ∧ index = idx ∧ index < r.items) →
        src = srcPlace s r k.pos idx → dst = dstPlace s r k.pos idx → cnt = requestLen r k.pos src.addr →
        odd = (r.srcFmt.width == 4 && k.pos % r.e0 % 2 == 1) → 0 < cnt →
        bytes = (if r.srcFmt.width = 4 then cdiv (cnt + b2n odd) 2 else r.srcFmt.bytes cnt) →
        src.dev = none → sramAddr c 0 ≤ src.addr → src.addr + bytes ≤ sramAddr c 0x40000 →
        dst.dev = none → sramAddr c 0 ≤ dst.addr → dst.addr + r.dstFmt.bytes cnt ≤ sramAddr c 0x40000 →
        cnt ≤ inLine r.dstFmt dst.addr → isMirrored s dst.addr (r.dstFmt.bytes cnt) = false →
        s.owes (· == .strand c n k.nextJob) = false →
        vals = (convAll r k.pos (elemsOf r.srcFmt (s.mem.read src.addr bytes) odd cnt)).1 →
        sums = ((elemsOf r.dstFmt (s.mem.read dst.addr (r.dstFmt.bytes cnt)) false cnt).zip vals).map
          (fun x => scatterSum r.dstFmt x.1 x.2) → (r.op = 3 → ∀ x ∈ sums, x.2 = false) →
        out = bytesOf r.dstFmt (if r.op = 3 then sums.map (·.1) else vals) →
        ∃ t, exec (.strandIssue c []) s = .next t ∧ watchersTold s t c
          ∧ t = { s with cores := t.cores, slu := t.slu, evt := t.evt, mem := t.mem, resv := t.resv
                         mons := t.mons, waits := t.waits }
          ∧ t.mem = s.mem.write dst.addr out ∧ (t.core c).ctxPtr = (n + 1) % 8
          ∧ t.ctx c n = { k with pos := k.pos + cnt, nextJob := k.nextJob + 1, stallAt := s.now, pausedAt := s.now }
          ∧ (∀ m ≠ n, t.ctx c m = s.ctx c m) ∧ (t.core c).sx = (s.core c).sx)
      ∧ (r.op ≠ 0 → ¬ (0 ≤ index ∧ index < r.items) →
        (r.zero = false → ∃ t, exec (.strandIssue c []) s = .next t ∧ (∀ d ≠ c, t.core d = s.core d)
          ∧ t = { s with cores := t.cores, slu := t.slu, evt := t.evt } ∧ (t.ctx c n).state = 4
          ∧ (t.ctx c n).cause = evStrandIndex ∧ (t.ctx c n).pos = k.pos ∧ (∀ m ≠ n, t.ctx c m = s.ctx c m)
          ∧ (t.core c).sx = (s.core c).sx)
        ∧ (r.zero = true → 2 ≤ r.op → r.relEn = false → ∃ t, exec (.strandIssue c []) s = .next t
          ∧ (∀ d ≠ c, t.core d = s.core d) ∧ t = { s with cores := t.cores, slu := t.slu }
          ∧ t.ctx c n = { k with pos := k.pos + (r.e0 - k.pos % r.e0) } ∧ (∀ m ≠ n, t.ctx c m = s.ctx c m)
          ∧ (t.core c).sx = (s.core c).sx)
        ∧ ∀ dst cnt, r.zero = true → r.op = 1 → r.relEn = false → dst = dstPlace s r k.pos 0 →
          cnt = min (r.e0 - k.pos % r.e0) (inLine r.dstFmt dst.addr) → dst.dev = none → sramAddr c 0 ≤ dst.addr →
          0 < cnt → dst.addr + r.dstFmt.bytes cnt ≤ sramAddr c 0x40000 →
          isMirrored s dst.addr (r.dstFmt.bytes cnt) = false → s.owes (· == .strand c n k.nextJob) = false →
          ∃ t, exec (.strandIssue c []) s = .next t ∧ watchersTold s t c
            ∧ t = { s with cores := t.cores, slu := t.slu, evt := t.evt, mem := t.mem, resv := t.resv
                           mons := t.mons, waits := t.waits }
            ∧ t.mem = s.mem.write dst.addr (bytesOf r.dstFmt (List.replicate cnt 0))
            ∧ t.ctx c n = { k with pos := k.pos + cnt, nextJob := k.nextJob + 1, stallAt := s.now, pausedAt := s.now }
            ∧ (∀ m ≠ n, t.ctx c m = s.ctx c m) ∧ (t.core c).sx = (s.core c).sx))
  ∧ (∀ (c n : Nat) (rest : List Nat) (s : State), s.settled → s.awake c → (s.core c).braid = none →
      braidWaiters s c = n :: rest → ∃ t, exec (.braidTile c) s = .next t ∧ onlyCore c s t
        ∧ t.core c = { s.core c with braid := some n, ctx := (t.core c).ctx }
        ∧ t.ctx c n = { s.ctx c n with tile := some { first := (s.ctx c n).pos } } ∧ ∀ m ≠ n, t.ctx c m = s.ctx c m)

/-- R211, R212: a block that has landed raises the fill by one; one that lands at or after t_dry is late, which is counted,
and raises STRAND_LATE once in a strand. The release word, as it is observed, sets what has been released; a strand that
waits for room goes on when there is room.
R199, R227: when every block has landed the strand is complete: its context is free and DONE counts it; a completion
signal to a word of its core adds SIG_ADD. CANCEL frees an occupied context, and is counted the same.
Completion: under these conditions on the state and the operands alone, exec answers the next state described for
blockLands, releaseObserved, strandComplete and strandCancel. -/
def Obligations.StrandEnds : Prop :=
  (∀ (c n : Nat) (k : Ctx) (s : State), s.settled → s.awake c → k = s.ctx c n →
      (blockLanded s c n → k.srec.sigEn = false ∨ k.srec.sigEach = false →
        ∃ t, exec (.blockLands c n) s = .next t ∧ (∀ d ≠ c, t.core d = s.core d)
          ∧ t = { s with cores := t.cores, slu := t.slu, evt := t.evt } ∧ (∀ m ≠ n, t.ctx c m = s.ctx c m)
          ∧ (k.srec.period = 0 ∨ (s.now : Int) < k.tdry → t.ctx c n = { k with landed := k.landed + 1 }
            ∧ (t.core c).late = (s.core c).late ∧ t.evt = s.evt)
          ∧ (k.srec.period ≠ 0 → k.tdry ≤ (s.now : Int) →
            t.ctx c n = { k with landed := k.landed + 1, lateBlock := true }
            ∧ (t.core c).late = ((s.core c).late + 1) % 2 ^ 64 ∧ (k.lateBlock = true → t.evt = s.evt)
            ∧ (k.lateBlock = false → t.evt = (raiseEv (.core c) evStrandLate (detTag k.tag 3 n k.pos) s).evt)))
      ∧ (∀ v, k.started = true → k.srec.relEn = true →
        engineWord (k.who c n) k.srec.relAddr s = some (.ok v) →
        (k.state = 2 ∨ k.state = 4 → ∃ t, exec (.releaseObserved c n) s = .next t ∧ onlyCore c s t
          ∧ (∀ m ≠ n, t.ctx c m = s.ctx c m) ∧ t.ctx c n = { k with
            released := v - k.r0, tref := if v - k.r0 > k.released then (s.now : Int) else k.tref })
        ∧ (k.state = 3 → v - k.r0 ≥ ((k.pos / k.srec.q + 1 : Nat) : Int) - k.srec.slots →
          ∃ t, exec (.releaseObserved c n) s = .next t ∧ (∀ d ≠ c, t.core d = s.core d) ∧ (t.ctx c n).state = 2
            ∧ (t.ctx c n).released = v - k.r0 ∧ (t.ctx c n).pos = k.pos ∧ (∀ m ≠ n, t.ctx c m = s.ctx c m)
            ∧ t = { s with cores := t.cores, slu := t.slu, evt := t.evt, waits := t.waits })))
  ∧ (∀ (c n : Nat) (k : Ctx) (s : State), s.settled → s.live → c < 10240 → n < 8 → (s.page (.core c)).pend = [] →
      s.bankFinds = [] → k = s.ctx c n →
      (s.awake c → strandFinished s c n → k.srec.sigEn = false ∨ k.srec.sigEach = true →
        ∃ t, exec (.strandComplete c n) s = .next t ∧ (∀ d ≠ c, t.core d = s.core d)
          ∧ t = { s with cores := t.cores, slu := t.slu, waits := t.waits }
          ∧ t.ctx c n = { tag := k.tag, nextJob := k.nextJob }
          ∧ (∀ m ≠ n, t.ctx c m = s.ctx c m) ∧ (t.core c).braid = (if (s.core c).braid = some n then none else (s.core c).braid)
          ∧ (t.core c).sx = { (s.core c).sx with done := ((s.core c).sx.done + 1) % 2 ^ 64 })
      ∧ (∀ o, s.awake c → strandFinished s c n → k.srec.sigEn = true → k.srec.sigEach = false →
        signalWord s c k.srec.sigAddr k.srec.sigAdd o → ∃ t, exec (.strandComplete c n) s = .next t
          ∧ signalled { s with waits := s.waits.filter fun x => !(x.core == c && x.waiter == ctxWaiter n) } t c
            k.srec.sigAdd o
          ∧ t.ctx c n = { tag := k.tag, nextJob := k.nextJob }
          ∧ (t.core c).sx = { (s.core c).sx with done := ((s.core c).sx.done + 1) % 2 ^ 64 })
      ∧ ∀ who, mayStore s who (pageBase (.core c) + (0x1800 + 0x120 + 0x40 * n)) (leBytes 8 2) → k.state ≠ 0 →
        ∃ t, exec (.strandCancel who c n) s = .next t ∧ (∀ d ≠ c, t.core d = s.core d)
          ∧ t = { s with cores := t.cores, slu := t.slu, waits := t.waits }
          ∧ t.ctx c n = { tag := k.tag, nextJob := k.nextJob } ∧ (∀ m ≠ n, t.ctx c m = s.ctx c m)
          ∧ (t.core c).sx = { (s.core c).sx with done := ((s.core c).sx.done + 1) % 2 ^ 64 })

/-- R226, R227, R231: RESUME sends a halted strand on from its saved position, or back to its wait where it had not started,
and leaves any other context alone. A strand without an acknowledgement for STRAND_STALL_LIMIT ticks raises STRAND_STALL,
and the next interval begins where that one ended (log entry 62).
R201: a restart of the strand port cancels every halted context and no other; a flush discards the records of the coil
and the contexts that wait; each record discarded is counted in DONE.
Completion: under these conditions on the state and the operands alone, exec answers the next state described for
strandResume, strandStall, strandPortRestart and strandPortFlush. -/
def Obligations.StrandHaltsAndPort : Prop :=
  (∀ (c n : Nat) (k : Ctx) (s : State), s.settled → s.live → c < 10240 → n < 8 → k = s.ctx c n →
      (∀ who, mayStore s who (pageBase (.core c) + (0x1800 + 0x120 + 0x40 * n)) (leBytes 8 1) →
        (k.state = 4 → k.started = true → k.srec.relEn = false → ∃ t, exec (.strandResume who c n) s = .next t
          ∧ onlyCore c s t ∧ (∀ m ≠ n, t.ctx c m = s.ctx c m)
          ∧ t.ctx c n = { k with state := 2, cause := 0, tile := none, stallAt := k.stallAt + (s.now - k.pausedAt) })
        ∧ (k.state = 4 → k.started = false → k.srec.waitEn = false → ∃ t, exec (.strandResume who c n) s = .next t
          ∧ onlyCore c s t ∧ (∀ m ≠ n, t.ctx c m = s.ctx c m)
          ∧ t.ctx c n = { k with state := 1, cause := 0, t0 := s.now, late := false })
        ∧ (k.state ≠ 4 → ∃ t, exec (.strandResume who c n) s = .next t ∧ t = { s with slu := t.slu }))
      ∧ (s.awake c → strandStalled s c n → ∃ t, exec (.strandStall c n) s = .next t ∧ (∀ d ≠ c, t.core d = s.core d)
        ∧ t = { s with cores := t.cores, slu := t.slu, evt := t.evt } ∧ (∀ m ≠ n, t.ctx c m = s.ctx c m)
        ∧ t.ctx c n = { k with stallAt := k.stallAt + s.field (.core c) 0x4C0 63 32 }
        ∧ t.evt = (raiseEv (.core c) evStrandStall (detTag k.tag 3 n k.pos) s).evt))
  ∧ (∀ (who : Issuer) (c : Nat) (s : State), s.settled → s.live → c < 10240 → (s.page (.core c)).pend = [] →
      (∀ v, mayStore s who (pageBase (.core c) + (0x1800 + 0x88)) (leBytes 8 v)) →
      (∃ t, exec (.strandPortRestart who c) s = .next t ∧ (∀ d ≠ c, t.core d = s.core d)
        ∧ t = { s with cores := t.cores, slu := t.slu, waits := t.waits }
        ∧ (∀ n < 8, (s.ctx c n).state = 4 → t.ctx c n = { tag := (s.ctx c n).tag, nextJob := (s.ctx c n).nextJob })
        ∧ (∀ n < 8, (s.ctx c n).state ≠ 4 → t.ctx c n = s.ctx c n) ∧ (t.core c).sx.coil = (s.core c).sx.coil
        ∧ (((upto 8).filter fun n => (s.ctx c n).state == 4) ≠ [] → (t.core c).sx.done
          = ((s.core c).sx.done + ((upto 8).filter fun n => (s.ctx c n).state == 4).length) % 2 ^ 64))
      ∧ ∃ t, exec (.strandPortFlush who c) s = .next t ∧ (∀ d ≠ c, t.core d = s.core d)
        ∧ t = { s with cores := t.cores, slu := t.slu, waits := t.waits } ∧ (t.core c).sx.coil = []
        ∧ (∀ n < 8, (s.ctx c n).state = 1 → t.ctx c n = { tag := (s.ctx c n).tag, nextJob := (s.ctx c n).nextJob })
        ∧ (∀ n < 8, (s.ctx c n).state ≠ 1 → t.ctx c n = s.ctx c n)
        ∧ (t.core c).sx.done = ((s.core c).sx.done + ((s.core c).sx.coil.length
          + ((upto 8).filter fun n => (s.ctx c n).state == 1).length)) % 2 ^ 64)

/-- R229, R234: SET_PRESENT and SET_ABSENT mark a page of HBM, of this device or of another; with RESUME the strands halted
on a page that is now present go on; a page outside usable HBM, a reserved field and a full table leave every mark as it is
and count an error.
Completion: under these conditions on the state and the operands alone, exec answers the next state described for
setAbsent and setPresent. -/
def Obligations.Presence : Prop :=
  ∀ (who : Issuer) (v : Word) (s : State) (page key : Nat), s.settled → s.live → mayWrite s who .pres 0x100 v.toNat →
    page = bits v.toNat 39 21 → key = bits v.toNat 59 48 * 0x80000 + page →
    (bits v.toNat 63 62 = 2 → bits v.toNat 47 40 = 0 → bits v.toNat 20 0 = 0 → inHbm (page * 0x200000) →
      ∃ t, exec (.setAbsent who v) s = .next t ∧ t = { s with pages := t.pages, slu := t.slu, pres := t.pres }
        ∧ (bit v.toNat 60 = false → page ∈ t.pres.absent ∧ (∀ q ≠ page, q ∈ t.pres.absent ↔ q ∈ s.pres.absent)
          ∧ t.pres.remote = s.pres.remote ∧ t.pres.errors = s.pres.errors)
        ∧ (bit v.toNat 60 = true → s.pres.remote.length < 1024 → key ∈ t.pres.remote
          ∧ (∀ q ≠ key, q ∈ t.pres.remote ↔ q ∈ s.pres.remote) ∧ t.pres.absent = s.pres.absent)
        ∧ (bit v.toNat 60 = true → 1024 ≤ s.pres.remote.length → key ∉ s.pres.remote →
          t.pres = { s.pres with errors := min 0xFFFF (s.pres.errors + 1), lastErr := 2 }))
    ∧ (bits v.toNat 63 62 = 1 → bits v.toNat 47 40 = 0 → bits v.toNat 20 0 = 0 → inHbm (page * 0x200000) →
      bit v.toNat 61 = false →
      ∃ t, exec (.setPresent who v) s = .next t ∧ t = { s with pages := t.pages, slu := t.slu, pres := t.pres }
        ∧ (bit v.toNat 60 = false → t.pres = { s.pres with absent := s.pres.absent.filter (· != page) })
        ∧ (bit v.toNat 60 = true → t.pres = { s.pres with remote := s.pres.remote.filter (· != key) }))
    ∧ (bits v.toNat 63 62 = 1 → bits v.toNat 47 40 = 0 → bits v.toNat 20 0 = 0 → inHbm (page * 0x200000) →
      bit v.toNat 61 = true →
      ∃ t, exec (.setPresent who v) s = .next t
        ∧ t = { s with pages := t.pages, slu := t.slu, pres := t.pres, cores := t.cores, waits := t.waits }
        ∧ t.pres.errors = s.pres.errors ∧ (bit v.toNat 60 = false → page ∉ t.pres.absent)
        ∧ (∀ c n, (s.ctx c n).state ≠ 4 → t.ctx c n = s.ctx c n)
        ∧ ∀ c n, n < 8 → (s.ctx c n).state = 4 → (s.ctx c n).cause = evStrandPage → (s.ctx c n).started = true →
          (s.ctx c n).srec.relEn = false →
          remoteOf s (s.ctx c n).addr = (if bit v.toNat 60 then some (bits v.toNat 59 48) else none) →
          localOf (s.ctx c n).addr / 0x200000 = page → (t.ctx c n).state = 2 ∧ (t.ctx c n).pos = (s.ctx c n).pos)
    ∧ (bits v.toNat 63 62 = 1 → bits v.toNat 47 40 ≠ 0 ∨ bits v.toNat 20 0 ≠ 0 →
      ∃ t, exec (.setPresent who v) s = .next t ∧ t = { s with pages := t.pages, slu := t.slu, pres := t.pres }
        ∧ t.pres = { s.pres with errors := min 0xFFFF (s.pres.errors + 1), lastErr := 3 })
    ∧ (bits v.toNat 63 62 = 1 → bits v.toNat 47 40 = 0 → bits v.toNat 20 0 = 0 → inHbm (page * 0x200000) = false →
      ∃ t, exec (.setPresent who v) s = .next t ∧ t = { s with pages := t.pages, slu := t.slu, pres := t.pres }
        ∧ t.pres = { s.pres with errors := min 0xFFFF (s.pres.errors + 1), lastErr := 1 })

/-! ## Sync words, bollards and knots (chapter 7) -/

/-- R179, R182: a checked operation on a sync word in core SRAM answers the value it found; SET and SWAP put their value
there, ADD the sum, CMP_SWAP its value where the word holds the comparand, READ nothing. Here a steward asks, and the answer
reaches its register. A reservation on the word is lost with an update.
R34, R180: a checked operation whose result leaves [0, 2^63 − 1] leaves the word as it is and raises SYNC_UNDERFLOW or
SYNC_OVERFLOW at the word's home.
Completion: under these conditions on the state and the operands alone, exec answers the next state described for
syncWordRead, syncWordSet, syncWordAdd, syncWordSwap and syncWordCmpSwap. -/
def Obligations.SyncWordOperations : Prop :=
  (∀ (c rd a dev key len va cause : Nat) (old : Int) (q : Req) (s : State), s.settled → s.live → s.bankFinds = [] →
      q = ⟨.steward c, a, .toReg c rd 8 true, dev⟩ → homeOf s a = .sync key → 0xC000000000 ≤ key → unwatched s key 8 →
      awaits s c len va cause → old = sext (leNat (s.mem.read key 8)) 64 → (∀ op, barrier s q (.sync op) = .clear) →
      (∃ t, exec (.syncWordRead q) s = .next t ∧ loaded s t c rd len (s.mem.read key 8) ∧ t.mem = s.mem ∧ t.resv = s.resv)
      ∧ (∀ v : Word, v.toNat < 2 ^ 63 → ∃ t, exec (.syncWordSet q v) s = .next t
        ∧ loaded s t c rd len (s.mem.read key 8) ∧ t.mem = s.mem.write key (leBytes 8 v.toNat)
        ∧ t.resv = s.resv.filter fun r => !overlaps r.2 8 key 8)
      ∧ (∀ v : Int, 0 ≤ old + v → old + v < 2 ^ 63 → ∃ t, exec (.syncWordAdd q v) s = .next t
        ∧ loaded s t c rd len (s.mem.read key 8) ∧ t.mem = s.mem.write key (leBytes 8 (old + v).toNat)
        ∧ t.resv = s.resv.filter fun r => !overlaps r.2 8 key 8)
      ∧ (∀ v : Word, v.toNat < 2 ^ 63 → ∃ t, exec (.syncWordSwap q v) s = .next t
        ∧ loaded s t c rd len (s.mem.read key 8) ∧ t.mem = s.mem.write key (leBytes 8 v.toNat)
        ∧ t.resv = s.resv.filter fun r => !overlaps r.2 8 key 8)
      ∧ ∀ cmp v : Word, v.toNat < 2 ^ 63 → ∃ t, exec (.syncWordCmpSwap q cmp v) s = .next t
        ∧ loaded s t c rd len (s.mem.read key 8)
        ∧ (old = sext cmp.toNat 64 → t.mem = s.mem.write key (leBytes 8 v.toNat)
          ∧ t.resv = s.resv.filter fun r => !overlaps r.2 8 key 8)
        ∧ (old ≠ sext cmp.toNat 64 → t.mem = s.mem ∧ t.resv = s.resv))
  ∧ (∀ (q : Req) (key : Nat) (v old : Int) (s : State), s.settled → s.live → s.bankFinds = [] → q.cont = .none →
      (∀ d x, q.who ≠ .device d x) → homeOf s q.addr = .sync key → 0xC000000000 ≤ key →
      barrier s q (.sync (.add v)) = .clear → old = sext (leNat (s.mem.read key 8)) 64 →
      (old + v < 0 → ∃ t, exec (.syncWordAdd q v) s = .next t ∧ t = { s with evt := t.evt, slu := t.slu }
        ∧ t.evt.inputs = (raiseEv (syncPage key) evSyncUnderflow (detSync (aliasOf key) s.deviceId q.who) s).evt.inputs)
      ∧ (2 ^ 63 - 1 < old + v → ∃ t, exec (.syncWordAdd q v) s = .next t ∧ t = { s with evt := t.evt, slu := t.slu }
        ∧ t.evt.inputs = (raiseEv (syncPage key) evSyncOverflow (detSync (aliasOf key) s.deviceId q.who) s).evt.inputs))

/-- R184 to R186: a PUT fills an empty bollard and a TAKE empties a full one; one that cannot complete waits its turn, and
ends with BOLLARD_TIMEOUT where nothing may wait or 32 wait already. A PUT completes the oldest TAKE that waits for it, a
TAKE the oldest PUT. A TAKE of bollard 0 of an IDLE core waits behind the steward's own. A host's launch PUT never waits.
R185, R423: the oldest operation that has waited for CORE_BOLLARD_CFG.TIMEOUT ticks ends with BOLLARD_TIMEOUT and
changes no bollard; in a polder that is not ACTIVE it wakes the polder, with cause 3.
Completion: under these conditions on the state and the operands alone, exec answers the next state described for put,
take, launchPut and bollardTimeout. -/
def Obligations.BollardOperations : Prop :=
  (∀ (q : Req) (c n : Nat) (s : State), s.settled → s.live → q.cont = .none → q.addr % 8 = 0 →
      homeOf s q.addr = .bollard c n →
      (∀ v, barrier s q (.put v) = .clear →
        (alookup n (s.core c).bol.full = none →
          (∀ w ∈ (s.core c).bol.waits, w.n = n → w.val ≠ none ∨ w.younger = true) →
          ∃ t, exec (.put q v) s = .next t ∧ onlyCore c s t
          ∧ t.core c = { s.core c with bol := { (s.core c).bol with full := aset n v (s.core c).bol.full } })
        ∧ (∀ w, alookup n (s.core c).bol.full = none → (∀ x ∈ (s.core c).bol.waits, x.n = n → x.val = none) →
          (s.core c).bol.waits.find? (fun x => x.n == n && x.val.isNone && !x.younger) = some w → w.req.cont = .none →
          ∃ t, exec (.put q v) s = .next t ∧ onlyCore c s t
          ∧ alookup n (t.core c).bol.full = none ∧ (t.core c).bol.waits = (s.core c).bol.waits.erase w
          ∧ ∀ m ≠ n, alookup m (t.core c).bol.full = alookup m (s.core c).bol.full)
        ∧ ((alookup n (s.core c).bol.full).isSome → s.bollardTimeout c ≠ 0 → (s.core c).bol.waits.length < 32 →
          ∃ t, exec (.put q v) s = .next t ∧ onlyCore c s t ∧ t.core c = { s.core c with bol := { (s.core c).bol with
            waits := (s.core c).bol.waits ++ [⟨n, some v, s.now, q, false⟩] } })
        ∧ ((alookup n (s.core c).bol.full).isSome → s.bollardTimeout c = 0 ∨ 32 ≤ (s.core c).bol.waits.length →
          ∃ t, exec (.put q v) s = .next t ∧ t = { s with evt := t.evt, slu := t.slu }
            ∧ t.evt = (raiseEv (.core c) evBollardTimeout (detUnit n (issuerCode q.who) (sourceDevice s q.who)) s).evt))
      ∧ (∀ behind : Bool, barrier s q .take = .clear → (behind = true ↔ n = 0 ∧ (s.core c).stw.st = .idle) →
        (∀ v, behind = false → alookup n (s.core c).bol.full = some v →
          (∀ w ∈ (s.core c).bol.waits, w.n = n → w.val = none) → ∃ t, exec (.take q) s = .next t ∧ onlyCore c s t
          ∧ t.core c = { s.core c with bol := { (s.core c).bol with full := (s.core c).bol.full.filter (·.1 != n) } })
        ∧ (∀ v w u, behind = false → alookup n (s.core c).bol.full = some v →
          (∀ x ∈ (s.core c).bol.waits, x.n = n → x.val ≠ none) → (s.core c).bol.waits.find? (fun x => x.n == n) = some w →
          w.val = some u → w.younger = false → w.req.cont = .none → ∃ t, exec (.take q) s = .next t ∧ onlyCore c s t
          ∧ alookup n (t.core c).bol.full = some u ∧ (t.core c).bol.waits = (s.core c).bol.waits.erase w
          ∧ ∀ m ≠ n, alookup m (t.core c).bol.full = alookup m (s.core c).bol.full)
        ∧ (behind = true ∨ alookup n (s.core c).bol.full = none → s.bollardTimeout c ≠ 0 →
          (s.core c).bol.waits.length < 32 → ∃ t, exec (.take q) s = .next t ∧ onlyCore c s t
          ∧ t.core c = { s.core c with bol := { (s.core c).bol with
            waits := (s.core c).bol.waits ++ [⟨n, none, s.now, q, behind⟩] } }))
      ∧ ∀ v i, q.who = .host i → barrier s q (.launch v) = .clear →
        (alookup n (s.core c).bol.full = none →
          (∀ w ∈ (s.core c).bol.waits, w.n = n → w.val ≠ none ∨ w.younger = true) → ∃ t, exec (.launchPut q v) s = .next t
          ∧ onlyCore c s t
          ∧ t.core c = { s.core c with bol := { (s.core c).bol with full := aset n v (s.core c).bol.full } })
        ∧ ((alookup n (s.core c).bol.full).isSome → ∃ t, exec (.launchPut q v) s = .next t
          ∧ t = { s with evt := t.evt, slu := t.slu }
          ∧ t.evt = (raiseEv (.core c) evBollardFull (detUnit n 0 i) s).evt))
  ∧ (∀ (c : Nat) (w : BolWait) (s : State), s.settled → s.live → c < 10240 → bolExpired s c = some w → w.req.cont = .none →
      ((s.polder (polderOf c)).state = 0 → ∃ t, exec (.bollardTimeout c) s = .next t ∧ (∀ d ≠ c, t.core d = s.core d)
        ∧ t = { s with cores := t.cores, slu := t.slu, evt := t.evt }
        ∧ t.core c = { s.core c with bol := { (s.core c).bol with waits := (s.core c).bol.waits.erase w } }
        ∧ t.evt = (raiseEv (.core c) evBollardTimeout (detUnit w.n (issuerCode w.req.who) (sourceDevice s w.req.who)) s).evt)
      ∧ ((s.polder (polderOf c)).state ≠ 0 → (s.polder (polderOf c)).wake = none →
        ∃ t, exec (.bollardTimeout c) s = .next t ∧ t = { s with slu := t.slu }
          ∧ (t.polder (polderOf c)).wake = some (s.now, 3)))

/-- R187 to R189: an arrival reaches the knot table, which takes it as the dike tick ends: one of a member in the slot's
generation counts; the last one releases the slot: the generation advances and the slot's bit of CORE_KNOT_SEEN toggles at
every member. One of a core that is no member, or of another generation, raises its event and changes no slot.
R190, R191, R193: a KNOT_CMD reaches the knot table, which takes it as the dike tick ends: a cancel of a pending chip
slot ends the generation with CORE_KNOT_CANCELLED set at its members, and leaves an idle slot alone; the root of a hall tree
cancels the tree's generation. A watchdog marks its slot and raises KNOT_TIMEOUT; the knot stays pending.
R192, R188: an arrival of this device at a hall slot, taken as the dike tick ends, counts one member; it is refused
where the device is no member or has arrived already. At SUBTREE the root, where no child and no chip slot is bound,
releases the generation.
R191: a mask load of a disabled slot takes the member mask that its image holds under its CRC; a load that fails leaves
the mask as it is and raises KNOT_LOAD_BAD.
Completion: under these conditions on the state and the operands alone, exec answers the next state described for
coreKnotArrive, knotCancel, hallCancel, chipKnotWatchdog, hallKnotWatchdog, deviceArrival and knotMaskLoad. -/
def Obligations.KnotTable : Prop :=
  (∀ (who : Issuer) (c k gen : Nat) (v : Word) (s : State), s.settled → s.live → c < 10240 → s.knotIn = [] →
      mayWrite s who (.core c) 0x160 v.toNat → k = bits v.toNat 5 0 → gen = bits v.toNat 63 32 →
      ∃ t u, exec (.coreKnotArrive who c v) s = .next t ∧ u = knotTick t
        ∧ t = { s with pages := t.pages, slu := t.slu, knotIn := [.arrive c k gen] }
        ∧ (chipEn s k = false ∨ c ∉ (s.chipSlot k).mask → u = { s with pages := t.pages, evt := u.evt, slu := u.slu }
          ∧ u.evt = (raiseEv .knot evKnotNotMember (detUnit k c gen) s).evt)
        ∧ (chipEn s k → c ∈ (s.chipSlot k).mask → gen ≠ (s.chipSlot k).gen ∨ c ∈ (s.chipSlot k).arrived →
          u = { s with pages := t.pages, evt := u.evt, slu := u.slu }
          ∧ u.evt = (raiseEv .knot evKnotStale (detUnit k c gen) s).evt)
        ∧ (chipEn s k → c ∈ (s.chipSlot k).mask → gen = (s.chipSlot k).gen → c ∉ (s.chipSlot k).arrived →
          ((s.chipSlot k).arrived.length + 1 < (s.chipSlot k).mask.length →
            u = { s with pages := t.pages, slu := u.slu, chipSlots := u.chipSlots }
            ∧ (∀ j ≠ k, u.chipSlot j = s.chipSlot j) ∧ (u.chipSlot k).arrived = c :: (s.chipSlot k).arrived
            ∧ (u.chipSlot k).gen = gen ∧ (u.chipSlot k).mask = (s.chipSlot k).mask
            ∧ ((s.chipSlot k).arrived = [] → (u.chipSlot k).t0 = s.now))
          ∧ ((s.chipSlot k).mask.length ≤ (s.chipSlot k).arrived.length + 1 → boundHall s k = none →
            chipRelEn s k = false → (s.page .knot).pend = [] → (s.chipSlot k).mask.Nodup →
            (∀ d ∈ (s.chipSlot k).mask, (s.polder (polderOf d)).state = 0) →
            u = { s with pages := u.pages, slu := u.slu, chipSlots := u.chipSlots, cores := u.cores, mons := u.mons }
            ∧ (∀ j ≠ k, u.chipSlot j = s.chipSlot j)
            ∧ u.chipSlot k = { s.chipSlot k with gen := (gen + 1) % 2 ^ 32, arrived := [], timedOut := false
                                                 bound := false, t0 := 0, wdog := (u.chipSlot k).wdog }
            ∧ released s u (s.chipSlot k).mask k false)))
  ∧ ((∀ (who : Issuer) (k : Nat) (s : State), s.settled → s.live → k < 64 → s.knotIn = [] →
      mayWrite s who .knot 0x108 (0x100 + k) → (s.page .knot).pend = [] →
      ∃ t u, exec (.knotCancel who k) s = .next t ∧ u = knotTick t
        ∧ t = { s with pages := t.pages, slu := t.slu, knotIn := [.cmd (0x100 + k)] }
        ∧ ((s.chipSlot k).arrived = [] → u = { s with pages := t.pages, slu := u.slu })
        ∧ ((s.chipSlot k).arrived ≠ [] → (s.chipSlot k).mask.Nodup →
          (∀ d ∈ (s.chipSlot k).mask, (s.polder (polderOf d)).state = 0) →
          u = { s with pages := u.pages, slu := u.slu, chipSlots := u.chipSlots, cores := u.cores, mons := u.mons }
          ∧ (u.chipSlot k).gen = ((s.chipSlot k).gen + 1) % 2 ^ 32 ∧ (u.chipSlot k).arrived = []
          ∧ released s u (s.chipSlot k).mask k true))
    ∧ (∀ (who : Issuer) (h : Nat) (s : State), s.settled → s.live → h < 16 → s.knotIn = [] →
      mayWrite s who .knot 0x108 (0x140 + h) → (s.page .knot).pend = [] →
      ∃ t u, exec (.hallCancel who h) s = .next t ∧ u = knotTick t
        ∧ t = { s with pages := t.pages, slu := t.slu, knotIn := [.cmd (0x140 + h)] }
        ∧ (hallEn s h = false → u = { s with pages := t.pages, slu := u.slu })
        ∧ (hallEn s h → hallRoot s h → hallChildren s h = [] → hallBound s h = none →
          u = { s with pages := u.pages, slu := u.slu, hallSlots := u.hallSlots }
          ∧ (∀ j ≠ h, u.hallSlot j = s.hallSlot j)
          ∧ u.hallSlot h = { mask := (s.hallSlot h).mask, gen := ((s.hallSlot h).gen + 1) % 2 ^ 32 }))
    ∧ (∀ (k : Nat) (s : State), s.settled → s.live → chipOverdue s k → ∃ t, exec (.chipKnotWatchdog k) s = .next t
      ∧ t = { s with chipSlots := t.chipSlots, evt := t.evt, slu := t.slu } ∧ (∀ j ≠ k, t.chipSlot j = s.chipSlot j)
      ∧ t.chipSlot k = { s.chipSlot k with timedOut := true }
      ∧ t.evt = (raiseEv .knot evKnotTimeout (detUnit k 0 (s.chipSlot k).arrived.length) s).evt)
    ∧ ∀ (h : Nat) (s : State), s.settled → s.live → hallOverdue s h → ∃ t, exec (.hallKnotWatchdog h) s = .next t
      ∧ t = { s with hallSlots := t.hallSlots, evt := t.evt, slu := t.slu } ∧ (∀ j ≠ h, t.hallSlot j = s.hallSlot j)
      ∧ t.hallSlot h = { s.hallSlot h with timedOut := true }
      ∧ t.evt = (raiseEv .knot evKnotTimeout (detUnit (64 + h) 0 (s.hallSlot h).count) s).evt)
  ∧ (∀ (who : Issuer) (h : Nat) (s : State), s.settled → s.live → h < 16 → s.knotIn = [] →
      mayWrite s who .knot 0x108 (0x240 + h) → (s.page .knot).pend = [] →
      ∃ t u, exec (.deviceArrival who h) s = .next t ∧ u = knotTick t
      ∧ t = { s with pages := t.pages, slu := t.slu, knotIn := [.cmd (0x240 + h)] }
      ∧ (hallEn s h = false ∨ s.deviceId ∉ (s.hallSlot h).mask →
        u = { s with pages := t.pages, evt := u.evt, slu := u.slu }
        ∧ u.evt = (raiseEv .knot evKnotNotMember (detUnit (64 + h) s.deviceId (s.hallSlot h).gen) s).evt)
      ∧ (hallEn s h → s.deviceId ∈ (s.hallSlot h).mask →
        (s.hallSlot h).self = true ∨ hallSubtree s h < (s.hallSlot h).count + 1 →
        u = { s with pages := t.pages, evt := u.evt, slu := u.slu }
          ∧ u.evt = (raiseEv .knot evKnotStale (detUnit (64 + h) s.deviceId (s.hallSlot h).gen) s).evt)
      ∧ (hallEn s h → s.deviceId ∈ (s.hallSlot h).mask → (s.hallSlot h).self = false →
        ((s.hallSlot h).count + 1 < hallSubtree s h →
          u = { s with pages := t.pages, hallSlots := u.hallSlots, slu := u.slu }
          ∧ (∀ j ≠ h, u.hallSlot j = s.hallSlot j) ∧ (u.hallSlot h).count = (s.hallSlot h).count + 1
          ∧ (u.hallSlot h).self = true ∧ (u.hallSlot h).pending = true ∧ (u.hallSlot h).gen = (s.hallSlot h).gen)
        ∧ ((s.hallSlot h).count + 1 = hallSubtree s h → hallRoot s h → hallChildren s h = [] → hallBound s h = none →
          u = { s with pages := u.pages, hallSlots := u.hallSlots, slu := u.slu }
            ∧ (∀ j ≠ h, u.hallSlot j = s.hallSlot j)
            ∧ u.hallSlot h = { mask := (s.hallSlot h).mask, gen := ((s.hallSlot h).gen + 1) % 2 ^ 32 })))
  ∧ (∀ (who : Issuer) (v : Word) (k src : Nat) (s : State), s.settled → s.live → mayWrite s who .knot 0x100 v.toNat →
      (s.page .knot).pend = [] → k = bits v.toNat 45 40 → src = bits v.toNat 39 0 → bit v.toNat 46 = false →
      (src % 64 ≠ 0 ∨ chipEn s k → ∃ t, exec (.knotMaskLoad who v) s = .next t
        ∧ t = { s with pages := t.pages, evt := t.evt, slu := t.slu }
        ∧ t.evt = (raiseEv .knot evKnotLoadBad (detUnit k 0 0) s).evt)
      ∧ (src % 64 = 0 → chipEn s k = false → 0xC000000000 ≤ src → src + 1284 ≤ 0xC0A0000000 → s.bankFinds = [] →
        barrier s ⟨.knot, src, .none, 0xFFF⟩ (.load 1284 false) = .clear →
        (crc32c ((s.mem.read src 1284).take 1280) = leNat ((s.mem.read src 1284).drop 1280) →
          ∃ t, exec (.knotMaskLoad who v) s = .next t
          ∧ t = { s with pages := t.pages, slu := t.slu, chipSlots := t.chipSlots
                         evt := { s.evt with sramSeep := t.evt.sramSeep } }
          ∧ (∀ j ≠ k, t.chipSlot j = s.chipSlot j)
          ∧ t.chipSlot k = { s.chipSlot k with mask := maskMembers ((s.mem.read src 1284).take 1280) })
        ∧ (crc32c ((s.mem.read src 1284).take 1280) ≠ leNat ((s.mem.read src 1284).drop 1280) →
          ∃ t, exec (.knotMaskLoad who v) s = .next t ∧ t = { s with pages := t.pages, evt := t.evt, slu := t.slu }
            ∧ t.evt.inputs = (raiseEv .knot evKnotLoadBad (detUnit k 0 0) s).evt.inputs)))

/-! ## HBM stacks (chapter 10) -/

/-- R264, R265, R271: a write of HBM leaves its bytes at its addresses, whichever of the cache and the stack holds them, and
every other byte as it was; a read changes no byte, but a LAST read drops the lines it touches, written back or not. Both
keep the cache of the stack in agreement with HBM, also while an MSC_CMD runs. The reservations on the words written are
lost, and what watches them is told.
R272: a read that touches a poisoned sector raises HBM_POISON at the stack and gives no data: a steward's load of 8
bytes then faults, where one that touches none loads the bytes as they stand.
Completion: under these conditions on the state and the operands alone, exec answers the next state described for
hbmWrite and hbmRead. -/
def Obligations.HbmAccesses : Prop :=
  (∀ (q : Req) (k n : Nat) (cls : MemClass) (s : State), s.settled → s.live → s.mem.wf →
      q.cont = .none → k = q.addr / 0x1000000000 → 1 ≤ n → n ≤ 4096 → q.addr < 0xC000000000 →
      cacheCoherent s k → (s.stack k).upsets = [] →
      (∀ bs : List Byte, bs.length = n → cls ≠ .last → barrier s q (.store bs) cls = .clear →
        isMirrored s q.addr n = false → ∃ t, exec (.hbmWrite q bs cls []) s = .next t ∧ (∀ c, watchersTold s t c)
          ∧ t = { s with hbmStacks := t.hbmStacks, mem := t.mem, resv := t.resv, slu := t.slu, cores := t.cores
                         mons := t.mons, waits := t.waits, freeCount := t.freeCount }
          ∧ t.peek q.addr n = bs ∧ hbmKept s t q.addr n ∧ (∀ a, 0xC000000000 ≤ a → t.mem.get a = s.mem.get a)
          ∧ (∀ j ≠ k, t.stack j = s.stack j) ∧ cacheCoherent t k ∧ t.mem.wf
          ∧ t.resv = s.resv.filter fun r => !overlaps r.2 8 q.addr n)
      ∧ (barrier s q (.load n false) cls = .clear → (hbmRead q.addr n cls s).1.2 = none →
        ∃ t, exec (.hbmRead q n cls []) s = .next t
          ∧ t = { s with hbmStacks := t.hbmStacks, mem := t.mem, slu := t.slu, freeCount := t.freeCount }
            ∧ (cls ≠ .last → hbmKept s t q.addr 0)
          ∧ (∀ a, 0xC000000000 ≤ a → t.mem.get a = s.mem.get a) ∧ (∀ j ≠ k, t.stack j = s.stack j)
          ∧ cacheCoherent t k ∧ t.mem.wf
          ∧ ((s.stack k).mscCmd ≠ 1 → (s.stack k).mscCmd ≠ 2 → cls = .last → t.mem = s.mem)
          ∧ (cls = .last → ∀ l ∈ (t.stack k).lines, overlaps (l.idx * 128) 128 (q.addr % 0x1000000000) n = false)))
  ∧ (∀ (c rd len va cause k o : Nat) (q : Req) (s : State), s.settled → s.live → s.mem.wf →
      q = ⟨.steward c, k * 0x1000000000 + o, .toReg c rd 8 true, 0xFFF⟩ → k < 12 → o % 8 = 0 → o < 0xF60000000 →
      barrier s q (.load 8 false) .stream = .clear → cacheCoherent s k → (s.stack k).lines = [] → (s.stack k).upsets = [] →
      awaits s c len va cause →
      (o / 32 ∉ (s.stack k).poison → ∃ t, exec (.hbmRead q 8 .stream []) s = .next t
        ∧ (t.core c).stw = { ((s.core c).stw.setX rd (loadValue 8 true (s.mem.read (k * 0x1000000000 + o) 8))).retire len
            with wait := .nothing }
        ∧ (∀ d ≠ c, t.core d = s.core d) ∧ t.mem = s.mem ∧ t.evt = s.evt)
      ∧ (o / 32 ∈ (s.stack k).poison → ∃ t, exec (.hbmRead q 8 .stream []) s = .next t
        ∧ (∀ d ≠ c, t.core d = s.core d) ∧ t.mem = s.mem ∧ (t.core c).stw.x = (s.core c).stw.x
        ∧ (t.core c).stw.wait = .nothing ∧ (t.core c).stw.instret = (s.core c).stw.instret))

/-- R273 to R278, R284: a token goes to the first stack that waits for one while less than two are out. A retrain attempt
that succeeds ends the hold and is reported; the third that fails is a breach of the pseudo-channel, which migrates from
block 0. The last retrain of a stack that returns from BRINGUP puts it in service. The copy moves block by block; behind the
last the pseudo-channel is retired and logged.
R284, R285: a soft repair is taken up by an idle arbiter and is the stack's REPAIR while it runs; a hard repair or a
lane remap outside BRINGUP is refused with HBM_REPAIR_BAD. A soft repair that ends well is counted and logged; one that
fails is reported.
Completion: under these conditions on the state and the operands alone, exec answers the next state described for
retrainTokenGrant, retrainAttemptEnd, migrationCopy, softRepair, hardRepair, laneRemap and repairComplete. -/
def Obligations.StackFaults : Prop :=
  ((∀ (k : Nat) (s : State), s.settled → s.live → tokensOut s < 2 → (upto 12).find? (awaitsToken s) = some k →
      s.held = [] → ∃ t, exec (.retrainTokenGrant k) s = .next t ∧ t = { s with hbmStacks := t.hbmStacks, slu := t.slu }
        ∧ (∀ j ≠ k, t.stack j = s.stack j) ∧ t.stack k = { s.stack k with token := true, attempts := 0 })
    ∧ (∀ (k pc : Nat) (s : State), s.settled → s.live → k < 12 → s.held = [] → (s.stack k).maint = some (.retrain, pc) →
      (s.stack k).token = true →
      ((s.stack k).waiting = [] → (s.stack k).returning = [pc] → ∃ t, exec (.retrainAttemptEnd k true) s = .next t
        ∧ (t.stack k).returning = [] ∧ (t.stack k).state = servingState s k ∧ (t.stack k).maint = none)
      ∧ ((s.stack k).waiting = [] → pc ∉ (s.stack k).returning → ∃ t, exec (.retrainAttemptEnd k true) s = .next t
        ∧ t = { s with hbmStacks := t.hbmStacks, slu := t.slu, evt := t.evt } ∧ (∀ j ≠ k, t.stack j = s.stack j)
        ∧ t.stack k = { s.stack k with maint := none, token := false, attempts := 0
                                       seep := ((s.stack k).seep + 1) % 2 ^ 64 }
        ∧ t.evt = (raiseEv (.stk k) evHbmRetrain (detUnit pc ((s.stack k).attempts + 1) 0) s).evt)
      ∧ ((s.stack k).attempts + 1 < 3 → ∃ t, exec (.retrainAttemptEnd k false) s = .next t
        ∧ t = { s with hbmStacks := t.hbmStacks, slu := t.slu } ∧ (∀ j ≠ k, t.stack j = s.stack j)
        ∧ t.stack k = { s.stack k with attempts := (s.stack k).attempts + 1 })
      ∧ (3 ≤ (s.stack k).attempts + 1 → (s.stack k).outPc = none → (s.stack k).state ≠ 2 → (s.stack k).waiting = [] →
        pc ∉ (s.stack k).returning → ∃ t, exec (.retrainAttemptEnd k false) s = .next t
          ∧ t = { s with hbmStacks := t.hbmStacks, slu := t.slu, evt := t.evt, sec := t.sec }
          ∧ (∀ j ≠ k, t.stack j = s.stack j) ∧ (t.stack k).state = (if (s.stack k).state = 3 then 3 else 1)
          ∧ (t.stack k).outPc = some pc
          ∧ (t.stack k).migrating = true ∧ (t.stack k).copyPtr = 0 ∧ (t.stack k).maint = some (.migration, pc)
          ∧ t.sec = { s.sec with logMigrating := s.sec.logMigrating ++ [(k, pc)] }
          ∧ t.evt = (raiseEv (.stk k) evHbmBreach (detUnit pc 0 0) s).evt))
    ∧ ∀ (k pc : Nat) (s : State), s.settled → s.live → k < 12 → s.held = [] → (s.stack k).upsets = [] →
      (s.stack k).maint = some (.migration, pc) →
      ((s.stack k).copyPtr + 1 < usableBlocks → ∃ t, exec (.migrationCopy k []) s = .next t
        ∧ t = { s with hbmStacks := t.hbmStacks, slu := t.slu } ∧ (∀ j ≠ k, t.stack j = s.stack j)
        ∧ t.stack k = { s.stack k with copyPtr := (s.stack k).copyPtr + 1
                                       window := (t.stack k).window, counts := (t.stack k).counts })
      ∧ ((s.stack k).copyPtr + 1 = usableBlocks → (s.stack k).waiting = [] → ∃ t, exec (.migrationCopy k []) s = .next t
        ∧ t = { s with hbmStacks := t.hbmStacks, slu := t.slu, evt := t.evt, sec := t.sec }
        ∧ (∀ j ≠ k, t.stack j = s.stack j) ∧ (t.stack k).migrating = false ∧ (t.stack k).maint = none
        ∧ (t.stack k).outPc = (s.stack k).outPc
        ∧ t.sec = { s.sec with logMigrating := s.sec.logMigrating.filter (fun r => r.1 != k)
                               logPcs := s.sec.logPcs ++ [(k, pc)] }
        ∧ t.evt = (raiseEv (.stk k) evHbmPcRetired (detUnit pc 0 0) s).evt))
  ∧ (∀ (k : Nat) (s : State), s.settled → s.live → k < 12 → s.held = [] →
      (∀ who v, mayWrite s who (.stk k) 0x130 v.toNat → (s.stack k).repairState ≠ 1 →
        (bits v.toNat 63 62 = 1 → arbiterIdle s k → ∃ t, exec (.softRepair who k v) s = .next t
          ∧ t = { s with hbmStacks := t.hbmStacks, pages := t.pages, slu := t.slu } ∧ (∀ j ≠ k, t.stack j = s.stack j)
          ∧ t.stack k = { s.stack k with repairState := 1, repairOp := v.toNat, attempts := 0, token := false
                                         maint := some (.repair, bits v.toNat 61 57) })
        ∧ (∀ op, op = 2 ∨ op = 3 → bits v.toNat 63 62 = op → (s.stack k).state ≠ 3 →
          ∃ t, exec (if op = 2 then .hardRepair who k v else .laneRemap who k v) s = .next t
            ∧ t = { s with hbmStacks := t.hbmStacks, pages := t.pages, slu := t.slu, evt := t.evt }
            ∧ (∀ j ≠ k, t.stack j = s.stack j) ∧ t.stack k = { s.stack k with repairState := 3 }
            ∧ t.evt = (raiseEv (.stk k) evHbmRepairBad (detUnit (bits v.toNat 61 57) op 0) s).evt)
        ∧ (∀ op, op = 2 ∨ op = 3 → bits v.toNat 63 62 = op → (s.stack k).state = 3 → (s.stack k).returning = [] →
          arbiterIdle s k →
          ∃ t, exec (if op = 2 then .hardRepair who k v else .laneRemap who k v) s = .next t
            ∧ t = { s with hbmStacks := t.hbmStacks, pages := t.pages, slu := t.slu } ∧ (∀ j ≠ k, t.stack j = s.stack j)
            ∧ (t.stack k).repairState = 1 ∧ (t.stack k).repairOp = v.toNat
            ∧ (t.stack k).maint = some (.repair, bits v.toNat 61 57)))
      ∧ ∀ pc, (s.stack k).maint = some (.repair, pc) → (s.stack k).waiting = [] →
        (bits (s.stack k).repairOp 63 62 = 1 → ∃ t, exec (.repairComplete k true) s = .next t
          ∧ t = { s with hbmStacks := t.hbmStacks, slu := t.slu, sec := t.sec } ∧ (∀ j ≠ k, t.stack j = s.stack j)
          ∧ (t.stack k).repairState = 2 ∧ (t.stack k).maint = none
          ∧ (t.stack k).softUsed = ((s.stack k).softUsed + 1) % 256
          ∧ (t.stack k).softRows = (s.stack k).softRows ++ [bits (s.stack k).repairOp 61 31]
          ∧ t.sec = { s.sec with logSoft := s.sec.logSoft ++ [(k, bits (s.stack k).repairOp 61 31)] })
        ∧ ∃ t, exec (.repairComplete k false) s = .next t
          ∧ t = { s with hbmStacks := t.hbmStacks, slu := t.slu, evt := t.evt } ∧ (∀ j ≠ k, t.stack j = s.stack j)
          ∧ (t.stack k).repairState = 3 ∧ (t.stack k).maint = none ∧ (t.stack k).softRows = (s.stack k).softRows
          ∧ t.evt = (raiseEv (.stk k) evHbmRepairBad (detUnit (bits (s.stack k).repairOp 61 57)
            (bits (s.stack k).repairOp 63 62) 0) s).evt)

/-- R263, R273, R281, R282: an idle arbiter admits a calibration, which ends at its completion, and the scrub, which goes
block by block; a new error window clears the counts; a refresh interval applies what the pages of a stack have pending.
R269, R283, R285, R286: a cache command makes the stack busy and, when it is done, leaves every line of the sets it had
still to pass clean, or gone, with every byte of HBM reading as before; one that comes meanwhile is ignored. The write-back
of BRINGUP empties the cache and ends in state 3. The wrapper registers take a write in BRINGUP alone; what is shifted out
of the wrapper is a free value.
Completion: under these conditions on the state and the operands alone, exec answers the next state described for
calibration, calibrationComplete, scrub, hbmErrorWindow, refreshInterval, mscWriteBack, mscWriteBackInvalidate,
mscCmdDone, bringupWriteBackComplete, stk1500Instr, stk1500DataWrite and stk1500DataRead. -/
def Obligations.StackMaintenance : Prop :=
  (∀ (k : Nat) (s : State), s.settled → s.live → k < 12 → s.held = [] →
      (∀ pc, (s.stack k).state ≠ 2 → pc < 32 → arbiterIdle s k → ∃ t, exec (.calibration k pc) s = .next t
        ∧ t = { s with hbmStacks := t.hbmStacks, slu := t.slu } ∧ (∀ j ≠ k, t.stack j = s.stack j)
        ∧ t.stack k = { s.stack k with maint := some (.calibration, pc), attempts := 0, token := false })
      ∧ (∀ pc, (s.stack k).maint = some (.calibration, pc) → (s.stack k).waiting = [] →
        ∃ t, exec (.calibrationComplete k) s = .next t
          ∧ t = { s with hbmStacks := t.hbmStacks, slu := t.slu } ∧ (∀ j ≠ k, t.stack j = s.stack j)
          ∧ t.stack k = { s.stack k with maint := none, attempts := 0, token := false })
      ∧ ((s.stack k).state ≠ 2 → arbiterIdle s k → s.field (.stk k) 0x128 15 0 ≠ 0 →
        (s.stack k).scrubNext + 1 < stackBlocks → (s.stack k).upsets = [] →
        ∃ t, exec (.scrub k []) s = .next t
          ∧ t = { s with hbmStacks := t.hbmStacks, slu := t.slu } ∧ (∀ j ≠ k, t.stack j = s.stack j)
          ∧ (t.stack k).scrubNext = (s.stack k).scrubNext + 1 ∧ (t.stack k).lines = (s.stack k).lines
          ∧ (t.stack k).maint = some (.scrub, servingChannel (s.stack k) (256 * (s.stack k).scrubNext)))
      ∧ (s.field (.stk k) 0x100 31 0 ≠ 0 → (s.stack k).window ≠ s.now / s.field (.stk k) 0x100 31 0 →
        ∃ t, exec (.hbmErrorWindow k) s = .next t
          ∧ t = { s with hbmStacks := t.hbmStacks, slu := t.slu } ∧ (∀ j ≠ k, t.stack j = s.stack j)
          ∧ t.stack k = { s.stack k with counts := [], window := s.now / s.field (.stk k) 0x100 31 0 })
      ∧ (∀ off d, off ≠ 0x150 → (s.page (.stk k)).pend = [(off, d)] → (s.page (.msc k)).pend = [] →
        (s.page (.spl k)).pend = [] → (s.page (.stk k)).hold = false → ∃ t, exec (.refreshInterval k) s = .next t
          ∧ t = { s with pages := t.pages, slu := t.slu } ∧ (t.page (.stk k)).pend = []
          ∧ t.reg (.stk k) off = pendValue s (.stk k) off d ∧ (∀ x ≠ off, t.reg (.stk k) x = s.reg (.stk k) x)
          ∧ ∀ p ≠ .stk k, t.page p = s.page p))
  ∧ (∀ (k : Nat) (s : State), s.settled → s.live → k < 12 → s.held = [] →
      (∀ who, (∀ v, mayWrite s who (.msc k) 0x108 v) →
        ((s.stack k).busy = false → s.stackUp k → (∃ t, exec (.mscWriteBack who k) s = .next t
            ∧ t = { s with hbmStacks := t.hbmStacks, pages := t.pages, slu := t.slu } ∧ (∀ j ≠ k, t.stack j = s.stack j)
            ∧ t.stack k = { s.stack k with busy := true, mscCmd := 1, mscSet := 0 })
          ∧ ∃ t, exec (.mscWriteBackInvalidate who k) s = .next t
            ∧ t = { s with hbmStacks := t.hbmStacks, pages := t.pages, slu := t.slu } ∧ (∀ j ≠ k, t.stack j = s.stack j)
            ∧ t.stack k = { s.stack k with busy := true, mscCmd := 2, mscSet := 0 })
        ∧ ((s.stack k).busy = true → ∃ t, exec (.mscWriteBack who k) s = .next t
          ∧ t = { s with pages := t.pages, slu := t.slu }))
      ∧ ((s.stack k).busy = true → s.mem.wf → cacheCoherent s k →
        ((s.stack k).mscCmd = 1 ∨ (s.stack k).mscCmd = 2 → mscDue s k → ∃ t, exec (.mscCmdDone k) s = .next t
          ∧ t = { s with hbmStacks := t.hbmStacks, mem := t.mem, slu := t.slu } ∧ (∀ j ≠ k, t.stack j = s.stack j)
          ∧ (t.stack k).busy = false ∧ (t.stack k).mscCmd = 0 ∧ hbmKept s t 0 0 ∧ cacheCoherent t k
          ∧ (∀ l ∈ (t.stack k).lines, (s.stack k).mscSet ≤ lineSet l.idx → l.dirty = false)
          ∧ ((s.stack k).mscCmd = 2 → ∀ l ∈ (t.stack k).lines, lineSet l.idx < (s.stack k).mscSet)))
      ∧ ((s.stack k).mscCmd = 4 → s.mem.wf → cacheCoherent s k →
        (∀ l ∈ (s.stack k).lines, l.dirty = true → lineHeld (s.stack k) l.idx = false) →
        ∃ t, exec (.bringupWriteBackComplete k) s = .next t
          ∧ t = { s with hbmStacks := t.hbmStacks, mem := t.mem, slu := t.slu } ∧ (∀ j ≠ k, t.stack j = s.stack j)
          ∧ t.stack k = { s.stack k with state := 3, mscCmd := 0, busy := false, lines := [], poison := (t.stack k).poison }
          ∧ hbmKept s t 0 0)
      ∧ (∀ who v, mayWrite s who (.stk k) 0x140 v.toNat → ∃ t, exec (.stk1500Instr who k v) s = .next t
        ∧ t = { s with hbmStacks := t.hbmStacks, pages := t.pages, slu := t.slu } ∧ (∀ j ≠ k, t.stack j = s.stack j)
        ∧ t.stack k = if (s.stack k).state = 3 then { s.stack k with instr1500 := bits v.toNat 7 0 } else s.stack k)
      ∧ (∀ who v, mayWrite s who (.stk k) 0x148 v.toNat → ∃ t, exec (.stk1500DataWrite who k v) s = .next t
        ∧ t = { s with hbmStacks := t.hbmStacks, pages := t.pages, slu := t.slu } ∧ (∀ j ≠ k, t.stack j = s.stack j)
        ∧ t.stack k = if (s.stack k).state = 3 then { s.stack k with data1500 := v.toNat } else s.stack k)
      ∧ ∀ c rd len va cause q, q = ⟨.steward c, pageBase (.stk k) + 0x148, .toReg c rd 8 true, 0xFFF⟩ →
        barrier s q (.load 8 false) = .clear → awaits s c len va cause → ∃ t, exec (.stk1500DataRead q k) s = .next t
          ∧ t = { s with cores := t.cores, slu := t.slu, freeCount := s.freeCount + 1 } ∧ (∀ d ≠ c, t.core d = s.core d)
          ∧ t.core c = { s.core c with stw := { ((s.core c).stw.setX rd (loadValue 8 true
              (leBytes 8 (Config.freeBits s.freeCount 64)))).retire len with wait := .nothing } })

/-! ## Nymbiest fabric (chapter 11) -/

/-- R290, R291: a flit that fails its check, or comes out of order, is discarded, and the first of a row is answered with
one NAK; a good one in order whose payload is a whole packet puts the packet into the receive buffer and is acknowledged. A
new error window clears the lanes' counts before.
R314: a lost lane lock, like the command, holds the link for a retrain; an attempt that ends well is reported and the
link says hello again, one that fails is followed by another; a credit stall is reported once.
Completion: under these conditions on the state and the operands alone, exec answers the next state described for
flitReceive, laneLockLoss, fportRetrain, linkRetrainAttemptEnd and fabCreditStall. -/
def Obligations.Links : Prop :=
  (∀ (port half : Nat) (flit : List Byte) (l : Link) (f : FPort) (s : State), s.settled → s.live → linkCarries s port half →
      l = s.link port half → f = (rollLanes port s).port port →
      (¬ (flit.length = 256 ∧ crc32c (flit.take 252) = leNat (flit.drop 252)
          ∧ (bit (leNat (flit.take 8)) 34 ∨ bits (leNat (flit.take 8)) 15 0 = l.rxSeq)) →
        ∃ t, exec (.flitReceive port half flit 0 []) s = .next t
          ∧ t = { s with ports := t.ports, sent := t.sent, slu := t.slu } ∧ (∀ x ≠ port, t.port x = s.port x)
          ∧ t.port port = { f with link0 := (t.port port).link0, link1 := (t.port port).link1
                                   corrSym := f.corrSym % 2 ^ 64 }
          ∧ t.link port half = { l with nakSent := true } ∧ t.link port (1 - half) = s.link port (1 - half)
          ∧ t.sent = if l.nakSent then s.sent else .flit port half (idleFlit l true 0 0) :: s.sent)
      ∧ ∀ p : Packet, flit.length = 256 → crc32c (flit.take 252) = leNat (flit.drop 252) →
        bits (leNat (flit.take 8)) 15 0 = l.rxSeq → bits (leNat (flit.take 8)) 34 32 = 0 →
        bits (leNat (flit.take 8)) 47 38 = 0 → l.queue = [] → l.partialRx = [] → packetSize p ≤ 244 →
        laneOpen l (pVl p) → p = { parseHeader ((flit.drop 8).take 244) with
          data := (((flit.drop 8).take 244).take (packetSize p)).drop 32 } →
        ∃ t, exec (.flitReceive port half flit 0 []) s = .next t
          ∧ t = { s with ports := t.ports, sent := t.sent, slu := t.slu } ∧ (∀ x ≠ port, t.port x = s.port x)
          ∧ t.port port = { f with link0 := (t.port port).link0, link1 := (t.port port).link1
                                   corrSym := f.corrSym % 2 ^ 64 }
          ∧ t.link port half = { l with rx := l.rx ++ [p], rxAt := l.rxAt ++ [s.now], rxSeq := (l.rxSeq + 1) % 65536
                                        accepted := true, nakSent := false }
          ∧ t.link port (1 - half) = s.link port (1 - half)
          ∧ t.sent = .flit port half (idleFlit (t.link port half) false 0 0) :: s.sent)
  ∧ (∀ (port half : Nat) (s : State), s.settled → s.live → linkExists s port half →
      (∀ lane, linkCarries s port half → laneLink s port lane = half → lane ∈ linkLanes s port half →
        ∃ t, exec (.laneLockLoss port lane) s = .next t ∧ t = { s with ports := t.ports, slu := t.slu }
          ∧ (∀ x ≠ port, t.port x = s.port x)
          ∧ t.link port half = { s.link port half with state := 4, attempts := 0, failedLanes := linkLanes s port half })
      ∧ (∀ who, linkCarries s port half → mayWrite s who (.fport port) 0x120 (1 + 4 * half) →
        ∃ t, exec (.fportRetrain who port half) s = .next t
          ∧ t = { s with ports := t.ports, pages := t.pages, slu := t.slu } ∧ (∀ x ≠ port, t.port x = s.port x)
          ∧ t.link port half = { s.link port half with state := 4, attempts := 0, failedLanes := linkLanes s port half })
      ∧ ((s.link port half).state = 4 → portEnabled s port → s.hopLimit ≠ 0 →
        ∃ t, exec (.linkRetrainAttemptEnd port half []) s = .next t
        ∧ t = { s with ports := t.ports, sent := t.sent, evt := t.evt, slu := t.slu } ∧ (∀ x ≠ port, t.port x = s.port x)
        ∧ (t.link port half).state = 6 ∧ (t.link port half).neighbour = none ∧ (t.link port half).attempts = 0
        ∧ ((s.link port half).queue = [] → (s.link port half).replay = [] → 1 ≤ nth 0 (s.link port half).credits 4 →
          t.sent = .flit port half (dataFlit (s.link port half) ((s.link port half).txSeq % 65536)
            (packetBytes (bumpHops (helloPacket s port half)))) :: s.sent)
        ∧ t.evt = (raiseEv (.fport port) evFabLinkRetrain
          (detUnit (halfCode s port half) ((s.link port half).attempts + 1) 0) s).evt)
      ∧ (∀ lane ∈ linkLanes s port half, (s.link port half).state = 4 → portEnabled s port →
        (s.link port half).attempts + 1 < 3 →
        ∃ t, exec (.linkRetrainAttemptEnd port half [lane]) s = .next t
          ∧ t = { s with ports := t.ports, slu := t.slu } ∧ (∀ x ≠ port, t.port x = s.port x)
          ∧ t.link port half = { s.link port half with attempts := (s.link port half).attempts + 1
                                                       failedLanes := (s.link port half).failedLanes.filter (· == lane) })
      ∧ ∀ vl, creditStalled s port half vl → ∃ t, exec (.fabCreditStall port half vl) s = .next t
        ∧ t = { s with ports := t.ports, evt := t.evt, slu := t.slu } ∧ (∀ x ≠ port, t.port x = s.port x)
        ∧ t.link port half = { s.link port half with stalled := put (s.link port half).stalled vl true }
        ∧ t.evt = (raiseEv (.fport port) evFabCreditStall (detUnit vl (halfCode s port half) 0) s).evt)

/-- R288, R315, R316: a link that comes up carries management traffic only, with full credits, and says hello; a neighbour's
hello names it, and the link is up where both device IDs are set and differ; equal IDs raise FAB_ID_CONFLICT. A retired or
degraded link is reinstated at full width and retrains. A new error window clears the lanes' counts.
Completion: under these conditions on the state and the operands alone, exec answers the next state described for
linkUp, linkHello, fportReinstate and fabricErrorWindow. -/
def Obligations.LinkUpAndHello : Prop :=
  (∀ (port half : Nat) (s : State), s.settled → s.live → linkExists s port half → portEnabled s port → s.hopLimit ≠ 0 →
    (s.link port half).state = 1 ∨ (s.link port half).state = 2 → ∃ t, exec (.linkUp port half) s = .next t
      ∧ t = { s with ports := t.ports, sent := t.sent, slu := t.slu } ∧ (∀ x ≠ port, t.port x = s.port x)
      ∧ (t.link port half).state = 6 ∧ (t.link port half).neighbour = none ∧ (t.link port half).rxSeq = 0
      ∧ ((s.link port half).queue = [] →
        (t.link port half).txSeq = 1 ∧ (t.link port half).credits = [512, 768, 384, 256, 127]
        ∧ t.sent = .flit port half (dataFlit {} 0 (packetBytes (bumpHops (helloPacket s port half)))) :: s.sent))
  ∧ (∀ (port half nid : Nat) (p : Packet) (s : State), s.settled → s.live → linkCarries s port half →
    p ∈ (s.link port half).rx → (half = 1 → p ∉ (s.link port 0).rx) → pOpc p = 0x10 → packetTurn s port p →
    malformed p = false → nid = bits (leNat p.data) 11 0 → (s.link port half).queue = [] →
    ∃ t, exec (.linkHello port half p) s = .next t
      ∧ t = { s with ports := t.ports, sent := t.sent, evt := t.evt, slu := t.slu } ∧ (∀ x ≠ port, t.port x = s.port x)
      ∧ t.link port half = { s.link port half with
          rx := (s.link port half).rx.erase p, rxAt := (t.link port half).rxAt
          neighbour := some (nid, bits (leNat p.data) 19 16)
          state := if s.deviceId = 0xFFF ∨ nid = 0xFFF ∨ nid = s.deviceId then 6 else 3 }
      ∧ t.sent = .flit port half (idleFlit (s.link port half) false (pVl p) (packetFlits p)) :: s.sent
      ∧ (nid ≠ s.deviceId → t.evt = s.evt)
      ∧ (nid = s.deviceId →
        t.evt = (raiseEv (.fport port) evFabIdConflict (detUnit nid (halfCode s port half) 0) s).evt))
  ∧ (∀ (who : Issuer) (port half : Nat) (s : State), s.settled → s.live → linkExists s port half → portEnabled s port →
    linkRetired (s.port port) half ∨ (s.link port half).state = 5 ∨ (s.port port).mode ≠ 0 →
    (s.link port half).queue = [] → mayWrite s who (.fport port) 0x120 (2 + 4 * half) →
    ∃ t, exec (.fportReinstate who port half) s = .next t
      ∧ t = { s with ports := t.ports, pages := t.pages, slu := t.slu } ∧ (∀ x ≠ port, t.port x = s.port x)
      ∧ (t.port port).dead = (s.port port).dead.filter (fun lane => (s.port port).split && lane / 4 != half)
      ∧ (t.port port).mode = 0 ∧ t.link port half = { freshLink s 4 with failedLanes := linkLanes t port half }
      ∧ t.link port (1 - half) = s.link port (1 - half))
  ∧ ∀ (port : Nat) (s : State), s.settled → s.live → port < 16 → s.field (.fport port) 0x118 31 0 ≠ 0 →
    (s.port port).window ≠ s.now / s.field (.fport port) 0x118 31 0 → ∃ t, exec (.fabricErrorWindow port) s = .next t
      ∧ t = { s with ports := t.ports, slu := t.slu } ∧ (∀ x ≠ port, t.port x = s.port x)
      ∧ t.port port = { s.port port with uncorr := [], window := s.now / s.field (.fport port) 0x118 31 0 }

/-- R298, R304: a READ, WRITE or MIRROR_WRITE of another device acts on memory as a load or store of that length, and its
answer goes to the requester with its REQ_ID: the data for a READ, a status of 0 for the others.
R179, R304: SYNC_ADD, SYNC_SUB, SYNC_SET and SYNC_READ act on the word that the alias names; the answer carries the
value it had, but for SYNC_SET. A result outside the range changes nothing, and its status is the event's number.
Completion: under these conditions on the state and the operands alone, exec answers the next state described for
read, write, mirrorWrite, syncAdd, syncSub, syncSet and syncRead. -/
def Obligations.MemoryAndSyncPackets : Prop :=
  (∀ (port : Nat) (p : Packet) (c a : Nat) (s : State), s.settled → s.live → s.bankFinds = [] →
      homeOf s (pAddr p) = .sram c a →
      (arrived s port p 0x01 → barrier s (packetReq s port p) (.load (pLen p) false) (packetClass p) = .clear →
        ∃ t, exec (.read port p []) s = .next t ∧ responded s t port p 0 0 (s.mem.read (pAddr p) (pLen p))
          ∧ t = { s with ports := t.ports, sent := t.sent, fab := t.fab, evt := t.evt, slu := t.slu })
      ∧ (arrived s port p 0x02 → barrier s (packetReq s port p) (.store p.data) = .clear →
        unwatched s (pAddr p) p.data.length → ∃ t, exec (.write port p) s = .next t ∧ responded s t port p 0 0 []
          ∧ t.mem = s.mem.write (pAddr p) p.data
          ∧ t.resv = s.resv.filter (fun r => !overlaps r.2 8 (pAddr p) p.data.length)
          ∧ t = { s with ports := t.ports, sent := t.sent, fab := t.fab, evt := t.evt, slu := t.slu, mem := t.mem
                         resv := t.resv })
      ∧ (arrived s port p 0x0D → barrier s (packetReq s port p) (.store p.data) = .clear →
        unwatched s (pAddr p) p.data.length → ∃ t, exec (.mirrorWrite port p) s = .next t ∧ responded s t port p 0 0 []
          ∧ t.mem = s.mem.write (pAddr p) p.data
          ∧ t.resv = s.resv.filter (fun r => !overlaps r.2 8 (pAddr p) p.data.length)
          ∧ t = { s with ports := t.ports, sent := t.sent, fab := t.fab, evt := t.evt, slu := t.slu, mem := t.mem
                         resv := t.resv }))
  ∧ (∀ (port key : Nat) (p : Packet) (old : Int) (s : State), s.settled → s.live → s.bankFinds = [] →
      aliasAddr (pAddr p) → homeOf s (pAddr p) = .sync key → 0xC000000000 ≤ key → unwatched s key 8 →
      (∀ op, barrier s (packetReq s port p) (.sync op) = .clear) → old = sext (leNat (s.mem.read key 8)) 64 →
      (arrived s port p 0x05 → 0 ≤ old + sext p.w3.toNat 64 → old + sext p.w3.toNat 64 < 2 ^ 63 →
        ∃ t, exec (.syncAdd port p) s = .next t ∧ responded s t port p 0 (leNat (s.mem.read key 8)) []
          ∧ t.mem = s.mem.write key (leBytes 8 (old + sext p.w3.toNat 64).toNat)
          ∧ t = { s with ports := t.ports, sent := t.sent, fab := t.fab, evt := t.evt, slu := t.slu, mem := t.mem
                         resv := t.resv })
      ∧ (arrived s port p 0x06 → 0 ≤ old - sext p.w3.toNat 64 → old - sext p.w3.toNat 64 < 2 ^ 63 →
        ∃ t, exec (.syncSub port p) s = .next t ∧ responded s t port p 0 (leNat (s.mem.read key 8)) []
          ∧ t.mem = s.mem.write key (leBytes 8 (old - sext p.w3.toNat 64).toNat)
          ∧ t = { s with ports := t.ports, sent := t.sent, fab := t.fab, evt := t.evt, slu := t.slu, mem := t.mem
                         resv := t.resv })
      ∧ (arrived s port p 0x06 → old - sext p.w3.toNat 64 < 0 → ∃ t, exec (.syncSub port p) s = .next t
        ∧ responded s t port p evSyncUnderflow 0 []
        ∧ t = { s with ports := t.ports, sent := t.sent, fab := t.fab, evt := t.evt, slu := t.slu })
      ∧ (arrived s port p 0x07 → p.w3.toNat < 2 ^ 63 → ∃ t, exec (.syncSet port p) s = .next t
        ∧ responded s t port p 0 0 [] ∧ t.mem = s.mem.write key (leBytes 8 p.w3.toNat)
        ∧ t = { s with ports := t.ports, sent := t.sent, fab := t.fab, evt := t.evt, slu := t.slu, mem := t.mem
                       resv := t.resv })
      ∧ (arrived s port p 0x08 → ∃ t, exec (.syncRead port p) s = .next t
        ∧ responded s t port p 0 (leNat (s.mem.read key 8)) []
        ∧ t = { s with ports := t.ports, sent := t.sent, fab := t.fab, evt := t.evt, slu := t.slu }))

/-- R192, R304, R306, R307: BOLLARD_PUT and BOLLARD_TAKE act on the bollard, TAKE's answer with the value; KNOT_ARRIVE of a
child adds its count to the slot, KNOT_RELEASE of the parent ends the generation of a slot without children, and releases
the chip slot bound to it.
R298, R301, R304: a malformed packet raises FAB_FORMAT, and a request is answered with that status; a packet for another
device leaves on the port that routing chooses. Neither touches memory or a core.
Completion: under these conditions on the state and the operands alone, exec answers the next state described for
bollardPut, bollardTake, knotArrive, knotRelease and read. -/
def Obligations.OtherPackets : Prop :=
  ((∀ (port c n : Nat) (p : Packet) (s : State), s.settled → s.live → bollardAddr (pAddr p) →
      homeOf s (pAddr p) = .bollard c n →
      (arrived s port p 0x09 → barrier s (packetReq s port p) (.put p.w3) = .clear → alookup n (s.core c).bol.full = none →
        (∀ w ∈ (s.core c).bol.waits, w.n = n → w.val ≠ none ∨ w.younger = true) →
        ∃ t, exec (.bollardPut port p) s = .next t ∧ responded s t port p 0 0 [] ∧ (∀ d ≠ c, t.core d = s.core d)
          ∧ t.core c = { s.core c with bol := { (s.core c).bol with full := aset n p.w3 (s.core c).bol.full } }
          ∧ t = { s with ports := t.ports, sent := t.sent, fab := t.fab, evt := t.evt, slu := t.slu, cores := t.cores })
      ∧ (∀ v, arrived s port p 0x0A → barrier s (packetReq s port p) .take = .clear →
        ¬ (n = 0 ∧ (s.core c).stw.st = .idle) → alookup n (s.core c).bol.full = some v →
        (∀ w ∈ (s.core c).bol.waits, w.n = n → w.val = none) → ∃ t, exec (.bollardTake port p) s = .next t
          ∧ responded s t port p 0 v.toNat [] ∧ (∀ d ≠ c, t.core d = s.core d)
          ∧ t.core c = { s.core c with bol := { (s.core c).bol with full := (s.core c).bol.full.filter (·.1 != n) } }
          ∧ t = { s with ports := t.ports, sent := t.sent, fab := t.fab, evt := t.evt, slu := t.slu, cores := t.cores }))
    ∧ (∀ (port h : Nat) (p : Packet) (s : State), s.settled → s.live → arrived s port p 0x0B → h = pAux p % 16 →
      hallEn s h → port ∈ hallChildren s h → wbits p.w3 31 0 = (s.hallSlot h).gen → pCancel p = false →
      (s.hallSlot h).count + wbits p.w3 44 32 < hallSubtree s h → ∃ t, exec (.knotArrive port p) s = .next t
        ∧ t = { s with hallSlots := t.hallSlots, ports := t.ports, sent := t.sent, fab := t.fab, slu := t.slu }
        ∧ t.ports = (takeReceived port p s).ports ∧ (∀ j ≠ h, t.hallSlot j = s.hallSlot j)
        ∧ (t.hallSlot h).count = (s.hallSlot h).count + wbits p.w3 44 32 ∧ (t.hallSlot h).pending = true
        ∧ (t.hallSlot h).gen = (s.hallSlot h).gen ∧ (t.hallSlot h).self = (s.hallSlot h).self)
    ∧ ∀ (port h : Nat) (p : Packet) (s : State), s.settled → s.live → arrived s port p 0x0C → h = pAux p % 16 →
      hallEn s h → wbits p.w3 31 0 = (s.hallSlot h).gen → hallChildren s h = [] → (s.page .knot).pend = [] →
      (hallBound s h = none → ∃ t, exec (.knotRelease port p) s = .next t
        ∧ t = { s with hallSlots := t.hallSlots, ports := t.ports, sent := t.sent, fab := t.fab, slu := t.slu }
        ∧ (∀ j ≠ h, t.hallSlot j = s.hallSlot j)
        ∧ t.hallSlot h = { mask := (s.hallSlot h).mask, gen := ((s.hallSlot h).gen + 1) % 2 ^ 32 })
      ∧ ∀ k, hallBound s h = some k → pCancel p = false → chipRelEn s k = false → (s.chipSlot k).mask.Nodup →
        (∀ d ∈ (s.chipSlot k).mask, (s.polder (polderOf d)).state = 0) → ∃ t, exec (.knotRelease port p) s = .next t
        ∧ t = { s with hallSlots := t.hallSlots, ports := t.ports, sent := t.sent, fab := t.fab, slu := t.slu
                       chipSlots := t.chipSlots, cores := t.cores, mons := t.mons, pages := t.pages }
        ∧ (∀ j ≠ h, t.hallSlot j = s.hallSlot j) ∧ (∀ j ≠ k, t.chipSlot j = s.chipSlot j)
        ∧ t.hallSlot h = { mask := (s.hallSlot h).mask, gen := ((s.hallSlot h).gen + 1) % 2 ^ 32 }
        ∧ (t.chipSlot k).gen = ((s.chipSlot k).gen + 1) % 2 ^ 32 ∧ (t.chipSlot k).arrived = []
        ∧ released s t (s.chipSlot k).mask k false)
  ∧ (∀ (port : Nat) (p : Packet) (s : State), s.settled → s.live → (rxHalf s port p).isSome → packetTurn s port p →
      pOpc p = 0x01 → (pDst p = s.deviceId ∨ pSrc p ≠ s.deviceId) →
      (malformed p = true → ∃ t, exec (.read port p []) s = .next t
        ∧ t = { s with ports := t.ports, sent := t.sent, fab := t.fab, evt := t.evt, slu := t.slu }
        ∧ t.sent = (rejectPacket port p (passGate port p s)).sent
        ∧ t.ports = (rejectPacket port p (passGate port p s)).ports)
      ∧ (malformed p = false → pDst p ≠ s.deviceId → ∃ t, exec (.read port p []) s = .next t
        ∧ t = { s with ports := t.ports, sent := t.sent, fab := t.fab, evt := t.evt, slu := t.slu }
        ∧ t.sent = (passOn port p (passGate port p s)).sent ∧ t.ports = (passOn port p (passGate port p s)).ports))

/-- R304, R318: a RESPONSE ends the request that bears its REQ_ID, and the load of a steward that it answers puts the data
into x[rd]; a RESPONSE that answers no outstanding request is discarded. A request that outlasts REQ_TIMEOUT ends with
FAB_TIMEOUT, which the FAB page raises and a steward finds in sdfaultcode.
R302: FAB_ROUTE_LOAD replaces the routing table by an image whose CRC matches and whose entry 0xFFF is zero; a load that
fails keeps the old table, records the failure and raises FAB_CFG_BAD.
R313: FAB_MIRROR_CMD with CMD 1 resumes its region, and no other; any other CMD does nothing.
Completion: under these conditions on the state and the operands alone, exec answers the next state described for
response, fabTimeout, fabRouteLoad and fabMirrorCmd. -/
def Obligations.FabricUnit : Prop :=
  ((∀ (port : Nat) (p : Packet) (s v : State), s.settled → s.live → s.bankFinds = [] → arrived s port p 0x1F →
      v = takeReceived port p (passGate port p s) →
      ((∀ o ∈ s.fab.outs, o.id ≠ pReqId p) → ∃ t, exec (.response port p) s = .next t
        ∧ t.ports = v.ports ∧ t.sent = v.sent ∧ t.fab = v.fab
        ∧ t = { s with ports := t.ports, sent := t.sent, fab := t.fab, slu := t.slu })
      ∧ ∀ (o : OutReq) (c rd len va cause : Nat), s.fab.outs.find? (fun x => x.id == pReqId p) = some o →
        o.cont = .toReg c rd 8 true → o.opc = 0x01 → pStatus p = 0 → awaits s c len va cause →
        ∃ t, exec (.response port p) s = .next t
          ∧ t.ports = v.ports ∧ t.sent = v.sent
          ∧ t.fab = { v.fab with outs := s.fab.outs.filter fun x => x.id != pReqId p }
          ∧ t.core c = { s.core c with stw := {
              ((s.core c).stw.setX rd (loadValue 8 true p.data)).retire len with wait := .nothing } }
          ∧ (∀ d ≠ c, t.core d = s.core d)
          ∧ t = { s with ports := t.ports, sent := t.sent, fab := t.fab, cores := t.cores, slu := t.slu })
    ∧ ∀ (id : Nat) (o : OutReq) (s : State), s.settled → s.live → requestOverdue s id →
      s.fab.outs.find? (fun x => x.id == id) = some o →
      (o.cont = .signal → ∃ t, exec (.fabTimeout id) s = .next t
        ∧ t = { s with fab := { s.fab with outs := s.fab.outs.filter fun x => x.id != id }, evt := t.evt, slu := t.slu }
        ∧ t.evt = (raiseEv .fab evFabTimeout (detUnit o.dst o.opc id) s).evt)
      ∧ ∀ (c rd n len va cause : Nat) (sg : Bool), o.cont = .toReg c rd n sg →
        awaits s c len va cause → (s.core c).stw.csrVal 0x305 ≠ 0 → ∃ t, exec (.fabTimeout id) s = .next t
          ∧ (∀ d ≠ c, t.core d = s.core d)
          ∧ t.fab = { s.fab with outs := s.fab.outs.filter fun x => x.id != id }
          ∧ t.evt = (raiseEv .fab evFabTimeout (detUnit o.dst o.opc id) s).evt
          ∧ (t.core c).stw.csrVal 0x7C1 = evFabTimeout ∧ (t.core c).stw.csrVal 0x341 = (s.core c).stw.pc.toNat
          ∧ (t.core c).stw.x = (s.core c).stw.x ∧ (t.core c).stw.wait = .nothing
          ∧ t = { s with fab := t.fab, evt := t.evt, cores := t.cores, slu := t.slu })
  ∧ (∀ (who : Issuer) (v : Word) (c a src : Nat) (image : List Byte) (s : State), s.settled → s.live → s.bankFinds = [] →
      mayWrite s who .fab 0x108 v.toNat → src = bits v.toNat 39 0 → homeOf s src = .sram c a → memMapped s src 16388 →
      image = s.mem.read src 16388 → barrier s ⟨.fanout, src, .none, 0xFFF⟩ (.load 16388 false) = .clear →
      ∃ t, exec (.fabRouteLoad who v) s = .next t ∧ t = { s with pages := t.pages, fab := t.fab, evt := t.evt, slu := t.slu }
        ∧ (src % 64 = 0 → crc32c (image.take 16384) = leNat (image.drop 16384) →
          (∀ b ∈ (image.take 16384).drop 16380, b = 0#8) →
          t.fab = { s.fab with
            route := routeEntries (image.take 16384), routeState := 0, routeCrc := crc32c (image.take 16384) }
              ∧ t.evt.inputs = s.evt.inputs)
        ∧ (src % 64 ≠ 0 ∨ crc32c (image.take 16384) ≠ leNat (image.drop 16384)
            ∨ (∃ b ∈ (image.take 16384).drop 16380, b ≠ 0#8) →
          t.fab = { s.fab with routeState := 2 }
          ∧ t.evt.inputs = (raiseEv .fab evFabCfgBad (detUnit 0 0 0) s).evt.inputs))
  ∧ (∀ (who : Issuer) (v : Word) (s : State), s.settled → s.live → mayWrite s who .fab 0x408 v.toNat →
      ∃ t, exec (.fabMirrorCmd who v) s = .next t ∧ t = { s with pages := t.pages, fab := t.fab, slu := t.slu }
        ∧ (bits v.toNat 5 4 = 1 → t.fab = { s.fab with
          suspended := s.fab.suspended.filter (· != bits v.toNat 3 0) })
        ∧ (bits v.toNat 5 4 ≠ 1 → t.fab = s.fab))

/-- R310, R309, R355: FAB_FANOUT_CMD queues an aligned descriptor while fewer than 16 are held; a descriptor that breaks a
rule is skipped with FAB_FORMAT; one that does not is written at DST on this device where the tree has LOCAL, and leaves on
the tree's ports but in SHARD-ONLY mode; when all is answered it counts in DONE, its error is recorded, or its signal given.
R309: a fan-out write that arrives on a port of its enabled tree is written where the tree has LOCAL and forwarded on
the tree's other ports; any other is answered with FAB_FORMAT, neither written nor forwarded. When the local write and the
forwarded ones are answered, the answer leaves on the arrival port with the first error.
Completion: under these conditions on the state and the operands alone, exec answers the next state described for
fabFanoutCmd, fanoutDescriptor, fanoutComplete, fanOutWrite and fanOutAnswer. -/
def Obligations.FanOut : Prop :=
  ((∀ (who : Issuer) (v : Word) (desc : Nat) (s : State), s.settled → s.live → mayWrite s who .fab 0x118 v.toNat →
      desc = bits v.toNat 39 0 → ∃ t, exec (.fabFanoutCmd who v) s = .next t
        ∧ t = { s with pages := t.pages, fab := t.fab, evt := t.evt, slu := t.slu }
        ∧ (desc % 32 = 0 → s.fab.fanQueue.length + b2n s.fab.fanRun.isSome < 16 →
          t.fab = { s.fab with fanQueue := s.fab.fanQueue ++ [desc] } ∧ t.evt = s.evt)
        ∧ (desc % 32 ≠ 0 ∨ 16 ≤ s.fab.fanQueue.length + b2n s.fab.fanRun.isSome → t.fab = s.fab
          ∧ t.evt.inputs = (raiseEv .fab evFabFormat (detUnit 0xFFFF 0x0E s.deviceId) s).evt.inputs))
    ∧ (∀ (desc c a : Nat) (rest w : List Nat) (s : State), s.settled → s.live → s.bankFinds = [] → s.fab.fanRun = none →
      s.fab.fanQueue = desc :: rest → (s.page .dist).pend = [] → homeOf s desc = .sram c a →
      barrier s ⟨.fanout, desc, .none, 0xFFF⟩ (.load 32 false) = .clear →
      w = (chunks 7 4 (s.mem.read desc 32)).map leNat →
      (fanBad s w → ∃ t, exec .fanoutDescriptor s = .next t ∧ t = { s with fab := t.fab, evt := t.evt, slu := t.slu }
        ∧ t.fab = { s.fab with fanQueue := rest, fanDone := (s.fab.fanDone + 1) % 2 ^ 32, fanErr := evFabFormat }
        ∧ t.evt.inputs = (raiseEv .fab evFabFormat (detUnit 0xFFFF 0x0E s.deviceId) s).evt.inputs)
      ∧ ∀ (src dst len tree c' a' c2 a2 : Nat) (ports : List Nat) (data : List Byte) (u : State), ¬ fanBad s w →
        src = fanField w 0 39 0 → dst = fanField w 1 39 0 → len = fanField w 2 26 0 → tree = fanField w 0 43 40 →
        len ≠ 8 → dst % 4096 + len ≤ 4096 → 1 ≤ s.hopLimit → homeOf s src = .sram c' a' → homeOf s dst = .sram c2 a2 →
        barrier s ⟨.fanout, src, .none, 0xFFF⟩ (.load len false) = .clear → data = s.mem.read src len →
        barrier s ⟨.fanout, dst, .ack .fanout, 0xFFF⟩ (.store data) = .clear → unwatched s dst len →
        ports = (if shardOnly s tree then [] else treePorts s tree) →
        u = each ports (fun p s => fanSend p tree dst 0 data .fanout s)
          { s with fab := { s.fab with fanQueue := rest } } →
        ∃ t, exec .fanoutDescriptor s = .next t
          ∧ t.fab = { u.fab with fanRun := some ⟨w, ports, treeLocal s tree, 0, len, false⟩ }
          ∧ t.ports = u.ports ∧ t.sent = u.sent
          ∧ t.mem = (if treeLocal s tree then s.mem.write dst data else s.mem)
          ∧ t = { s with fab := t.fab, ports := t.ports, sent := t.sent, mem := t.mem, resv := t.resv, slu := t.slu
                         evt := { s.evt with sramSeep := t.evt.sramSeep } })
    ∧ ∀ (r : FanRun) (hall add : Nat) (s : State), s.settled → s.live → s.bankFinds = [] → s.fab.fanRun = some r →
      fanComplete s → hall = fanField r.words 3 51 0 → add = fanField r.words 3 63 52 →
      (r.status ≠ 0 ∨ add = 0 → ∃ t, exec .fanoutComplete s = .next t ∧ t = { s with slu := t.slu, fab := { s.fab with
        fanRun := none, fanDone := (s.fab.fanDone + 1) % 2 ^ 32
        fanErr := if r.status = 0 then s.fab.fanErr else r.status } })
      ∧ ∀ c o, r.status = 0 → add ≠ 0 → signalWord s c hall add o →
        barrier s ⟨.fanout, localOf hall, .ack .fanout, devOf hall⟩ (.sync (.add add)) = .clear →
        ∃ t, exec .fanoutComplete s = .next t ∧ signalled s { t with fab := s.fab } c add o ∧ t.cores = s.cores
          ∧ t.fab = { s.fab with fanRun := none, fanDone := (s.fab.fanDone + 1) % 2 ^ 32 })
  ∧ ((∀ (port tree id : Nat) (p : Packet) (s v : State), s.settled → s.live → s.bankFinds = [] → arrived s port p 0x0E →
      tree = pAux p % 16 → id = s.fab.relays.foldl (fun m r => max m (r.id + 1)) 0 → v = takeReceived port p (passGate port p s) →
      (¬ treeTakes s port p → 1 ≤ s.hopLimit → ∃ t, exec (.fanOutWrite port p) s = .next t
        ∧ t.sent = (refuseOnPort port p (packetDry s port p) evFabFormat v).sent
        ∧ t.ports = (refuseOnPort port p (packetDry s port p) evFabFormat v).ports
        ∧ t.evt = (raiseFormat port p s).evt ∧ t.fab = v.fab
        ∧ t = { s with ports := t.ports, sent := t.sent, fab := t.fab, evt := t.evt, slu := t.slu })
      ∧ ∀ (c a : Nat) (u : State), treeTakes s port p → pHops p + 1 ≤ s.hopLimit → p.data.length ≠ 8 →
        homeOf s (pAddr p) = .sram c a → unwatched s (pAddr p) p.data.length →
        barrier s ⟨.device (pSrc p) port, pAddr p, .ack (.relay id), 0xFFF⟩ (.store p.data) = .clear →
        u = each ((treePorts s tree).filter (· != port))
          (fun x s => fanSend x tree (pAddr p) (pHops p) p.data (.relay id) s)
          { v with fab := { v.fab with relays := s.fab.relays ++ [⟨id, port, pSrc p, pReqId p, 0⟩] } } →
        ∃ t, exec (.fanOutWrite port p) s = .next t ∧ t.fab = u.fab ∧ t.ports = u.ports ∧ t.sent = u.sent
          ∧ t.mem = (if treeLocal s tree then s.mem.write (pAddr p) p.data else s.mem)
          ∧ t = { s with ports := t.ports, sent := t.sent, fab := t.fab, mem := t.mem, resv := t.resv, slu := t.slu })
    ∧ ∀ (id : Nat) (r : Relay) (s u : State), s.settled → s.live → relayDue s id →
      s.fab.relays.find? (fun x => x.id == id) = some r → 1 ≤ s.hopLimit →
      u = sendOnPort r.port 0
        ⟨mkPacket 0x1F true none r.dst s.deviceId 0 1 r.reqId r.status 0 false 0 [0#8], none, 16, true⟩ s →
      ∃ t, exec (.fanOutAnswer id) s = .next t ∧ t.ports = u.ports ∧ t.sent = u.sent
        ∧ t.fab = { s.fab with relays := s.fab.relays.filter fun x => x.id != id }
        ∧ t = { s with ports := t.ports, sent := t.sent, fab := t.fab, slu := t.slu })

/-! ## Splice units (chapter 12) -/

/-- R328, R343: SPL_TAG_OPEN puts the descriptor it names into the table, in ZEROING, or FAULTED on a retired stack, in the
entry of the same tag where that is DONE and else in a free one; a descriptor that breaks a rule, whose tag is open, or for
which there is no entry, leaves the table as it is and raises SPLICE_FORMAT.
R331, R341, R344, R230: when zeroing ends the tag enters ROUND1, where it expects the bytes of all its contributors; its
accumulator lines are zero, in the partition while that has room; an absent page of its ranges makes it FAULTED. A round
that outlasts TAG_WDOG raises SPLICE_TIMEOUT, and goes on. An abort frees the tag, or marks it in FINISHING.
Completion: under these conditions on the state and the operands alone, exec answers the next state described for
splTagOpen, zeroingComplete, spliceTimeout and spliceAbort. -/
def Obligations.SpliceTags : Prop :=
  (∀ (who : Issuer) (k c a desc : Nat) (v : Word) (x : Tag) (s : State), s.settled → s.live → s.bankFinds = [] → k < 12 →
      mayWrite s who (.spl k) 0x100 v.toNat → desc = bits v.toNat 39 0 → homeOf s desc = .sram c a → memMapped s desc 128 →
      barrier s ⟨.splice k 0, desc, .none, 0xFFF⟩ (.load 128 false) = .clear →
      x.words = (chunks 7 16 (s.mem.read desc 128)).map leNat → x = {
        tag := bits (x.w 0) 11 0, words := x.words, state := if (s.stack k).state = 2 then 6 else 1
        cause := if (s.stack k).state = 2 then evHbmStackRetired else 0 } →
      ∃ t, exec (.splTagOpen who k v) s = .next t
        ∧ t = { s with pages := t.pages, spl := t.spl, evt := t.evt, slu := t.slu } ∧ (∀ j ≠ k, t.splice j = s.splice j)
        ∧ (desc % 64 ≠ 0 → t.spl = s.spl ∧ t.evt.inputs = (splFormat k 0xFFFF s).evt.inputs)
        ∧ (desc % 64 = 0 → (tagDescBad k x ∨ ∃ y ∈ (s.splice k).tags, y.tag = x.tag ∧ y.state ≠ 5) →
          t.spl = s.spl ∧ t.evt.inputs = (splFormat k x.tag s).evt.inputs)
        ∧ (desc % 64 = 0 → 256 ≤ (s.splice k).tags.length → (∀ y ∈ (s.splice k).tags, y.tag ≠ x.tag ∧ y.state ≠ 5) →
          t.spl = s.spl ∧ t.evt.inputs = (splFormat k x.tag s).evt.inputs)
        ∧ (desc % 64 = 0 → ¬ tagDescBad k x → (∀ y ∈ (s.splice k).tags, y.tag ≠ x.tag) → (s.splice k).tags.length < 256 →
          t.splice k = { s.splice k with tags := (s.splice k).tags ++ [x] } ∧ t.evt.inputs = s.evt.inputs)
        ∧ (desc % 64 = 0 → ¬ tagDescBad k x → (∃ y ∈ (s.splice k).tags, y.tag = x.tag) →
          (∀ y ∈ (s.splice k).tags, y.tag = x.tag → y.state = 5) →
          t.splice k = { s.splice k with tags := (s.splice k).tags.map fun y => if y.tag = x.tag then x else y }))
  ∧ ((∀ (k tag : Nat) (x : Tag) (s : State), s.settled → tagIn s k tag 1 0 → findTag s k tag = some x → x.waiting = [] →
      tagDescBad k x = false → s.stackUp k → (s.stack k).upsets = [] → ∃ t, exec (.zeroingComplete k tag) s = .next t
        ∧ (∀ j ≠ k, t.splice j = s.splice j ∧ t.stack j = s.stack j) ∧ (∀ g ≠ tag, findTag t k g = findTag s k g)
        ∧ t = { s with spl := t.spl, hbmStacks := t.hbmStacks, mem := t.mem, evt := t.evt, slu := t.slu
                       freeCount := t.freeCount }
        ∧ (tagPages s x = none → t.evt = s.evt ∧ findTag t k tag = some { x with
            state := 2, received := 0, expect := expect1 x, t0 := s.now, late := false }
          ∧ ((s.splice k).part.length + 64 * x.blocks ≤ partRoom s k → ∀ b < x.blocks, ∀ idx ∈ blockLines x b,
            ∃ l ∈ (t.splice k).part, l.idx = idx ∧ l.data = List.replicate 128 0#8))
        ∧ (tagPages s x ≠ none → t.mem = s.mem
          ∧ findTag t k tag = some { x with state := 6, cause := evPageAbsent, phase := 0 }))
    ∧ (∀ (k tag : Nat) (x : Tag) (s : State), s.settled → s.live → k < 12 → tagOverdue s k tag → findTag s k tag = some x →
      ∃ t, exec (.spliceTimeout k tag) s = .next t ∧ t = { s with spl := t.spl, evt := t.evt, slu := t.slu }
        ∧ findTag t k tag = some { x with late := true } ∧ (∀ g ≠ tag, findTag t k g = findTag s k g)
        ∧ (∀ j ≠ k, t.splice j = s.splice j)
        ∧ t.evt = (splEvent k evSpliceTimeout tag (if x.state = 4 then 2 else 1) (x.received % 2 ^ 32) s).evt)
    ∧ ∀ (who : Issuer) (k tag : Nat) (v : Word) (x : Tag) (s : State), s.settled → s.live → k < 12 →
      mayWrite s who (.spl k) 0x108 v.toNat → bits v.toNat 17 16 = 1 → tag = bits v.toNat 11 0 →
      findTag s k tag = some x → x.waiting = [] → ∃ t, exec (.spliceAbort who k v) s = .next t
        ∧ t = { s with pages := t.pages, spl := t.spl, slu := t.slu } ∧ (∀ j ≠ k, t.splice j = s.splice j)
        ∧ (∀ g ≠ tag, findTag t k g = findTag s k g)
        ∧ (x.state ≠ 3 → findTag t k tag = none) ∧ (x.state = 3 → findTag t k tag = some { x with abort := true }))

/-- R339 to R341, R343: SPLICE_ACC adds its elements to the accumulator words from ADDR on, SPLICE_MAX keeps the larger
report; RECEIVED rises by the bytes, and the tag enters FINISHING where it reaches EXPECT; the packet is answered with
success. A packet for no open tag is answered with SPLICE_TAG_BAD, one that carries RECEIVED past EXPECT with SPLICE_COUNT,
which faults the tag, one that names a control page with ADDR_PROTECTED (R28).
Completion: under these conditions on the state and the operands alone, exec answers the next state described for
spliceAcc and spliceMax. -/
def Obligations.SplicePackets : Prop :=
  ∀ (port k : Nat) (p : Packet) (s : State), s.settled → s.live → k = pAddr p / 0x1000000000 →
    (∀ c off, homeOf s (pAddr p) = .ctrl c off → arrived s port p 0x03 → ∃ t, exec (.spliceAcc port p) s = .next t
      ∧ responded s t port p evAddrProtected 0 []
      ∧ t = { s with ports := t.ports, sent := t.sent, fab := t.fab, evt := t.evt, slu := t.slu })
    ∧ (homeOf s (pAddr p) = .hbm (pAddr p) → (arrived s port p 0x03 → findTag s k (pAux p) = none →
      ∃ t, exec (.spliceAcc port p) s = .next t
      ∧ responded s t port p evSpliceTagBad 0 []
      ∧ (eligible s (pSrc p) ≠ [] → 1 ≤ s.hopLimit → t.evt = (splEvent k evSpliceTagBad (pAux p) (pSrc p) 0 s).evt)
      ∧ t = { s with ports := t.ports, sent := t.sent, fab := t.fab, evt := t.evt, slu := t.slu })
    ∧ ∀ (x : Tag), findTag s k (pAux p) = some x → (x.state = 2 ∨ x.state = 4) →
      unitHeld s k (pAddr p) (if pOpc p = 0x03 then 2 * p.data.length else p.data.length) = false →
      (arrived s port p 0x03 → ¬ outsideTag x false (pAddr p) p.data.length → x.expect < x.received + p.data.length →
        ∃ t, exec (.spliceAcc port p) s = .next t ∧ responded s t port p evSpliceCount 0 []
          ∧ findTag t k (pAux p) = some { x with state := 6, cause := evSpliceCount, phase := 0 }
          ∧ (eligible s (pSrc p) ≠ [] → 1 ≤ s.hopLimit → t.evt = (splEvent k evSpliceCount (pAux p) (pSrc p) 0 s).evt)
          ∧ t = { s with ports := t.ports, sent := t.sent, fab := t.fab, evt := t.evt, spl := t.spl, slu := t.slu })
      ∧ (∀ l, arrived s port p 0x03 → ¬ outsideTag x false (pAddr p) p.data.length → 0 < p.data.length →
        x.received + p.data.length ≤ x.expect → anyAbsent s (pAddr p) (2 * p.data.length) = false →
        pAddr p % 128 + 2 * p.data.length ≤ 128 → (s.splice k).part.length ≤ partRoom s k →
        (s.splice k).part.find? (fun m => m.idx == pAddr p % 0x1000000000 / 128) = some l →
        ∃ t, exec (.spliceAcc port p) s = .next t ∧ responded s t port p 0 0 []
          ∧ (t.splice k).part.head? = some ⟨l.idx, true, false, [], addWords l.data (pAddr p % 128)
            ((chunks 3 (p.data.length / 4) p.data).map leNat)⟩
          ∧ findTag t k (pAux p) = some { x with
              received := x.received + p.data.length, phase := 0
              state := if x.received + p.data.length = x.expect then 3 else x.state
              finAt := if x.received + p.data.length = x.expect then some s.now else none }
          ∧ (∀ j ≠ k, t.splice j = s.splice j)
          ∧ t = { s with ports := t.ports, sent := t.sent, fab := t.fab, evt := t.evt, spl := t.spl, slu := t.slu })
      ∧ (∀ old, arrived s port p 0x04 → ¬ outsideTag x true (pAddr p) p.data.length → p.data.length = 4 →
        x.received + 4 ≤ x.expect → anyAbsent s (pAddr p) 4 = false →
        cacheCoherent s k → (s.stack k).upsets = [] → s.mem.wf → hbmBadSector s (pAddr p) 4 = none →
        old = leNat (s.peek (pAddr p) 4) →
        ∃ t, exec (.spliceMax port p) s = .next t ∧ responded s t port p 0 0 []
          ∧ t.peek (pAddr p) 4 = leBytes 4 (if sext (leNat p.data) 32 > sext old 32 then leNat p.data else old)
          ∧ hbmKept s t (pAddr p) 4 ∧ (∀ a, 0xC000000000 ≤ a → t.mem.get a = s.mem.get a)
          ∧ findTag t k (pAux p) = some { x with
              received := x.received + 4, phase := 0
              state := if x.received + 4 = x.expect then 3 else x.state
              finAt := if x.received + 4 = x.expect then some s.now else none }
          ∧ t = { s with ports := t.ports, sent := t.sent, fab := t.fab, evt := t.evt, spl := t.spl, mem := t.mem,
                         hbmStacks := t.hbmStacks, slu := t.slu, freeCount := t.freeCount }))

/-- R345, R333, R334, R348: the round-1 verdict marks each block from its report and its exponent and writes NEXT_SHEET;
with no block to send again the tag goes on to its read-out, with one it enters ROUND2, for which it expects those blocks
from every contributor. The read-out rounds each word once, to FP32 at the block's exponent.
R345, R344, R26: when the read-out is acknowledged, SIG_ADD is added to SIG_ADDR and the tag is DONE; an abort frees it
before any signal; a PUT at another device's bollard is ADDR_PROTECTED, and the tag FAULTED.
Completion: under these conditions on the state and the operands alone, exec answers the next state described for
verdict and readOutComplete. -/
def Obligations.VerdictAndReadOut : Prop :=
  (∀ (k tag : Nat) (x : Tag) (s : State), s.settled → tagIn s k tag 3 0 → findTag s k tag = some x → x.waiting = [] →
      tagDescBad k x = false → tagPages s x = none → (∀ l ∈ (s.splice k).part, l.dirty = false) → s.bankFinds = [] →
      s.stackUp k → (s.stack k).upsets = [] →
      (∀ (ms : List Nat) (es : List Int) (marks : List Nat) (c a c' a' : Nat) (sheet : List Byte), x.marks = [] →
        (hbmRead x.maxBase (4 * x.blocks) .ordinary s).1.2 = none →
        ms = (chunks 3 x.blocks (hbmRead x.maxBase (4 * x.blocks) .ordinary s).1.1).map leNat →
        homeOf s (bits (x.w 4) 39 0 + 64) = .sram c a →
        barrier s ⟨x.who k, bits (x.w 4) 39 0 + 64, .none, 0xFFF⟩ (.load (2 * x.blocks) false) = .clear →
        es = (chunks 1 x.blocks (s.mem.read (bits (x.w 4) 39 0 + 64) (2 * x.blocks))).map
          (fun e => sext (nth 0#8 e 0).toNat 8) →
        marks = (upto x.blocks).map (fun b => verdictOf (nth 0 ms b) (nth 0 es b)) →
        sheet = sheetBytes s x 1 ((x.step + 1) % 2 ^ 32)
          ((upto x.blocks).map fun b => (nextExp (nth 0 ms b) (nth 0 es b), 0)) →
        homeOf s (bits (x.w 5) 39 0) = .sram c' a' → unwatched s (bits (x.w 5) 39 0) sheet.length →
        barrier s ⟨x.who k, bits (x.w 5) 39 0, .ack (.tag k tag), 0xFFF⟩ (.store sheet) = .clear →
        (1 ∉ marks → bit (x.w 0) 16 = false → ∃ t, exec (.verdict k tag) s = .next t
          ∧ t.mem = s.mem.write (bits (x.w 5) 39 0) sheet
          ∧ findTag t k tag = some { x with marks := marks, exps := es, phase := 1 }
          ∧ (3 ∉ marks → t.evt.inputs = s.evt.inputs) ∧ (∀ g ≠ tag, findTag t k g = findTag s k g)
          ∧ t = { s with spl := t.spl, mem := t.mem, resv := t.resv, hbmStacks := t.hbmStacks, evt := t.evt, slu := t.slu
                         freeCount := t.freeCount })
        ∧ ∀ (rows : List (Int × Nat)) (sheet2 : List Byte), 1 ∈ marks → 3 ∉ marks → x.abort = false →
          bits (x.w 9) 63 52 = 0 → (∃ c'' a'', homeOf s (bits (x.w 6) 39 0) = .sram c'' a'') →
          rows = ((upto x.blocks).map fun b =>
            if nth 0 marks b = 1 then (min (sext (nth 0 ms b) 32 - 27) 127, 1) else (nth 0 es b, 2)) →
          sheet2 = sheetBytes s x 2 x.step rows → unwatched s (bits (x.w 6) 39 0) sheet2.length →
          barrier s ⟨x.who k, bits (x.w 6) 39 0, .ack (.tag k tag), 0xFFF⟩ (.store sheet2) = .clear →
          ∃ t, exec (.verdict k tag) s = .next t
            ∧ findTag t k tag = some { x with
                state := 4, received := 0, expect := x.contrib * (marks.filter (· == 1)).length * 4096,
                marks := marks, t0 := s.now, late := false, phase := 0,
                exps := rows.map (·.1) }
            ∧ t.evt.inputs = (splEvent k evSpliceResplice tag 0 (marks.filter (· == 1)).length s).evt.inputs
            ∧ t = { s with spl := t.spl, mem := t.mem, resv := t.resv, hbmStacks := t.hbmStacks, evt := t.evt,
                           slu := t.slu, freeCount := t.freeCount })
      ∧ (x.marks ≠ [] → bit (x.w 0) 16 = false → ∃ t, exec (.verdict k tag) s = .next t
        ∧ findTag t k tag = some { x with phase := 1 } ∧ t = { s with spl := t.spl, slu := t.slu })
      ∧ ∀ (line : Nat → Line) (c a : Nat) (out : List Byte × Nat), x.marks ≠ [] → bit (x.w 0) 16 = true → x.blocks = 1 →
        (∀ i < 64, (s.splice k).part.find? (fun l => l.idx == x.acc % 0x1000000000 / 128 + i) = some (line i)) →
        out = readOutBlock x 0 ((chunks 7 1024 ((upto 64).flatMap fun i => (line i).data)).map leNat) →
        homeOf s (bits (x.w 7) 39 0) = .sram c a → anyAbsent s (bits (x.w 7) 39 0) 4096 = false →
        barrier s ⟨x.who k, bits (x.w 7) 39 0, .ack (.tag k tag), 0xFFF⟩ (.store out.1) = .clear →
        unwatched s (bits (x.w 7) 39 0) out.1.length → ∃ t, exec (.verdict k tag) s = .next t
          ∧ t.mem = s.mem.write (bits (x.w 7) 39 0) out.1 ∧ (t.splice k).sat = ((s.splice k).sat + out.2) % 2 ^ 64
          ∧ findTag t k tag = some { x with phase := 1 }
          ∧ t = { s with spl := t.spl, mem := t.mem, resv := t.resv, slu := t.slu })
  ∧ (∀ (k tag : Nat) (x : Tag) (s : State), s.settled → tagIn s k tag 3 1 → s.owes (· == .tag k tag) = false →
      findTag s k tag = some x → x.waiting = [] → s.bankFinds = [] →
      (x.abort = true → ∃ t, exec (.readOutComplete k tag) s = .next t ∧ findTag t k tag = none
        ∧ (∀ g ≠ tag, findTag t k g = findTag s k g) ∧ t = { s with spl := t.spl, slu := t.slu })
      ∧ (x.abort = false → bits (x.w 8) 63 52 = 0 → bit (x.w 0) 17 = false →
        ∃ t, exec (.readOutComplete k tag) s = .next t
          ∧ findTag t k tag = some { x with state := 5, doneAt := (s.splice k).doneSeq }
          ∧ (∀ g ≠ tag, findTag t k g = findTag s k g) ∧ t = { s with spl := t.spl, slu := t.slu })
      ∧ (x.abort = false → bits (x.w 8) 63 52 = 0 → bit (x.w 0) 17 → (remoteOf s (bits (x.w 10) 51 0)).isSome →
        ∃ t, exec (.readOutComplete k tag) s = .next t
          ∧ findTag t k tag = some { x with state := 6, cause := evAddrProtected, phase := 0 }
          ∧ (∀ g ≠ tag, findTag t k g = findTag s k g) ∧ t = { s with spl := t.spl, evt := t.evt, slu := t.slu })
      ∧ ∀ c o, x.abort = false → bits (x.w 8) 63 52 ≠ 0 → bit (x.w 0) 17 = false →
        signalWord s c (bits (x.w 8) 51 0) (bits (x.w 8) 63 52) o →
        barrier s ⟨x.who k, localOf (bits (x.w 8) 51 0), .ack (.tag k tag), devOf (bits (x.w 8) 51 0)⟩
          (.sync (.add (bits (x.w 8) 63 52))) = .clear → ∃ t, exec (.readOutComplete k tag) s = .next t
          ∧ signalled s { t with spl := s.spl } c (bits (x.w 8) 63 52) o ∧ t.cores = s.cores
          ∧ findTag t k tag = some { x with state := 5, phase := 2, doneAt := (s.splice k).doneSeq })

/-- R335 to R338: SPL_SEND_CMD queues an aligned descriptor while fewer than 16 are held; a descriptor that breaks a rule,
or whose sheet is another step's, round's or too small, is skipped; else each block to be sent leaves as one SPLICE_ACC,
converted at its exponent, in round 1 followed by its report; when all is answered the descriptor counts in DONE, its error
is recorded, or its signal given.
Completion: under these conditions on the state and the operands alone, exec answers the next state described for
splSendCmd, sendDescriptor and sendComplete. -/
def Obligations.SendEngine : Prop :=
  (∀ (who : Issuer) (k desc : Nat) (v : Word) (s : State), s.settled → s.live → k < 12 →
    mayWrite s who (.spl k) 0x138 v.toNat → desc = bits v.toNat 39 0 → ∃ t, exec (.splSendCmd who k v) s = .next t
      ∧ t = { s with pages := t.pages, spl := t.spl, evt := t.evt, slu := t.slu } ∧ (∀ j ≠ k, t.splice j = s.splice j)
      ∧ (desc % 64 = 0 → (s.splice k).sends.length + b2n (s.splice k).send.isSome < 16 →
        t.splice k = { s.splice k with sends := (s.splice k).sends ++ [desc] } ∧ t.evt = s.evt)
      ∧ (desc % 64 ≠ 0 ∨ 16 ≤ (s.splice k).sends.length + b2n (s.splice k).send.isSome → t.spl = s.spl
        ∧ t.evt.inputs = (splFormat k 0xFFFF s).evt.inputs))
  ∧ (∀ (k desc c a c' a' sheet first n round : Nat) (rest w : List Nat) (head marks : List Byte) (s : State), s.settled →
    s.live → k < 12 → s.bankFinds = [] → (s.splice k).send = none → (s.splice k).sends = desc :: rest →
    homeOf s desc = .sram c a → barrier s ⟨.sender k, desc, .none, 0xFFF⟩ (.load 64 false) = .clear →
    w = (chunks 7 8 (s.mem.read desc 64)).map leNat → sheet = bits (nth 0 w 1) 39 0 → first = bits (nth 0 w 2) 13 0 →
    n = bits (nth 0 w 2) 28 14 → round = bits (nth 0 w 3) 33 32 →
    (sendBad k w → ∃ t, exec (.sendDescriptor k) s = .next t ∧ t = { s with spl := t.spl, evt := t.evt, slu := t.slu }
      ∧ t.splice k = { s.splice k with
          sends := rest, sendDone := ((s.splice k).sendDone + 1) % 2 ^ 32, sendErr := evSpliceFormat }
      ∧ t.evt.inputs = (splFormat k 0xFFFF s).evt.inputs)
    ∧ (¬ sendBad k w → homeOf s sheet = .sram c' a' →
      barrier s ⟨.sender k, sheet, .none, 0xFFF⟩ (.load 64 false) = .clear → head = s.mem.read sheet 64 →
      (bits (leNat (head.take 8)) 63 32 ≠ bits (nth 0 w 3) 31 0 ∨ bits (leNat (head.take 8)) 25 24 ≠ round
        ∨ bits (leNat ((head.drop 24).take 8)) 14 0 < first + n →
        ∃ t, exec (.sendDescriptor k) s = .next t ∧ t = { s with spl := t.spl, evt := t.evt, slu := t.slu }
          ∧ t.splice k = { s.splice k with
              sends := rest, sendDone := ((s.splice k).sendDone + 1) % 2 ^ 32, sendErr := evSpliceSheetBad }
          ∧ t.evt.inputs = (splEvent k evSpliceSheetBad (bits (leNat (head.take 8)) 11 0)
            (bits (leNat (head.take 8)) 25 24) 0 s).evt.inputs)
      ∧ ((∃ c'' a'', homeOf s (sheet + 64 + 2 * first) = .sram c'' a'') →
        barrier s ⟨.sender k, sheet + 64 + 2 * first, .none, 0xFFF⟩ (.load (2 * n) false) = .clear →
        marks = s.mem.read (sheet + 64 + 2 * first) (2 * n) →
        bits (leNat (head.take 8)) 63 32 = bits (nth 0 w 3) 31 0 → bits (leNat (head.take 8)) 25 24 = round →
        first + n ≤ bits (leNat ((head.drop 24).take 8)) 14 0 →
        (∀ i < n, (nth 0#8 marks (2 * i + 1)).toNat ≠ if round = 1 then 0 else 1) →
        ∃ t, exec (.sendDescriptor k) s = .next t
          ∧ t.splice k = { s.splice k with sends := rest, send := some { words := w, head := head } }
          ∧ t = { s with spl := t.spl, slu := t.slu, evt := { s.evt with sramSeep := t.evt.sramSeep } })
      ∧ ∀ (owner src : Nat) (xs : List Nat) (data : List Byte × Nat) (u u' : State),
        (∃ c'' a'', homeOf s (sheet + 64 + 2 * first) = .sram c'' a'') →
        barrier s ⟨.sender k, sheet + 64 + 2 * first, .none, 0xFFF⟩ (.load (2 * n) false) = .clear →
        marks = s.mem.read (sheet + 64 + 2 * first) (2 * n) →
        bits (leNat (head.take 8)) 63 32 = bits (nth 0 w 3) 31 0 → bits (leNat (head.take 8)) 25 24 = round →
        first + n ≤ bits (leNat ((head.drop 24).take 8)) 14 0 → n = 1 → round = 1 → (nth 0#8 marks 1).toNat = 0 →
        owner = bits (leNat (head.take 8)) 23 12 → owner ≠ 0xFFF → owner ≠ s.deviceId → src = bits (nth 0 w 0) 39 0 →
        homeOf s src = .hbm src → barrier s ⟨.sender k, src, .none, 0xFFF⟩ (.load 4096 false) = .clear →
        (hbmRead src 4096 .ordinary s).1.2 = none →
        xs = (chunks 3 1024 (hbmRead src 4096 .ordinary s).1.1).map leNat →
        data = contribution w first (sext (nth 0#8 marks 0).toNat 8) xs →
        u = request (.sender k) 0x03 owner (leNat ((head.drop 8).take 5) + 8192 * first) data.1.length
          (bits (leNat (head.take 8)) 11 0) 0 data.1 false none (.ack (.sender k)) s →
        u' = request (.sender k) 0x04 owner (leNat ((head.drop 16).take 5) + 4 * first) 4
          (bits (leNat (head.take 8)) 11 0) 0 (leBytes 4 (maxReport xs)) false none (.ack (.sender k)) u →
        u'.answers = [] → ∃ t, exec (.sendDescriptor k) s = .next t ∧ t.fab = u'.fab ∧ t.ports = u'.ports ∧ t.sent = u'.sent
          ∧ t.splice k = { s.splice k with
              sends := rest, send := some { words := w, head := head }
              sat := ((s.splice k).sat + data.2) % 2 ^ 64 }
          ∧ t = { s with spl := t.spl, fab := t.fab, ports := t.ports, sent := t.sent, slu := t.slu, evt := t.evt,
                         hbmStacks := t.hbmStacks, mem := t.mem, freeCount := t.freeCount }))
  ∧ ∀ (k hall add : Nat) (x : SendRun) (s : State), s.settled → s.live → k < 12 → s.bankFinds = [] → sendDue s k →
    (s.splice k).send = some x → hall = bits (nth 0 x.words 7) 51 0 → add = bits (nth 0 x.words 7) 63 52 →
    (x.err ≠ 0 ∨ add = 0 → ∃ t, exec (.sendComplete k) s = .next t ∧ t = { s with spl := t.spl, slu := t.slu }
      ∧ t.splice k = { s.splice k with send := none, sendDone := ((s.splice k).sendDone + 1) % 2 ^ 32,
                                       sendErr := if x.err = 0 then (s.splice k).sendErr else x.err })
    ∧ ∀ c o, x.err = 0 → add ≠ 0 → signalWord s c hall add o →
      barrier s ⟨.sender k, localOf hall, .ack (.sender k), devOf hall⟩ (.sync (.add add)) = .clear →
      ∃ t, exec (.sendComplete k) s = .next t ∧ signalled s { t with spl := s.spl } c add o ∧ t.cores = s.cores
        ∧ t.splice k = { s.splice k with send := none, sendDone := ((s.splice k).sendDone + 1) % 2 ^ 32 }

/-- R349, R353, R360: an auxiliary command that breaks a rule is skipped with SPLICE_FORMAT; a sketch writes its tiles of
plus and minus one, a mask one byte per parameter; when its writes are acknowledged it ends, with its signal unless it
failed.
Completion: under these conditions on the state and the operands alone, exec answers the next state described for
sketch, maskExpand and auxCommandComplete. -/
def Obligations.AuxiliaryCommands : Prop :=
  (∀ (who : Issuer) (k op desc c a dst : Nat) (v : Word) (w : List Nat) (s : State), s.settled → s.live → k < 12 →
    s.bankFinds = [] → mayWrite s who (.spl k) 0x148 v.toNat → desc = bits v.toNat 39 0 →
    desc % 64 = 0 → (s.splice k).auxQueue = [] → (s.splice k).auxRun = none → homeOf s desc = .sram c a →
    barrier s ⟨.aux k, desc, .none, 0xFFF⟩ (.load 64 false) = .clear → w = (chunks 7 8 (s.mem.read desc 64)).map leNat →
    auxOp s v = op → bits (nth 0 w 0) 3 0 = op → dst = bits (nth 0 w 1) 39 0 →
    (auxBad w → op = 1 ∨ op = 2 →
      ∃ t, exec (if op = 1 then .sketch who k v else .maskExpand who k v) s = .next t
        ∧ t = { s with pages := t.pages, evt := t.evt, spl := t.spl, slu := t.slu }
        ∧ t.splice k = s.splice k ∧ t.evt.inputs = (splFormat k 0xFFFF s).evt.inputs)
    ∧ (¬ auxBad w → op = 1 → (∀ p ∈ sketchTiles w, isMirrored s p.1 256 = false ∧ (∃ c' a', homeOf s p.1 = .sram c' a')
        ∧ barrier s ⟨.aux k, p.1, .ack (.aux k), 0xFFF⟩ (.store p.2) = .clear) →
      ∃ t, exec (.sketch who k v) s = .next t
        ∧ t.mem = (sketchTiles w).foldl (fun m p => m.write p.1 p.2) s.mem
        ∧ t.splice k = { s.splice k with auxRun := some { words := w } } ∧ (∀ d, watchersTold s t d)
        ∧ t = { s with pages := t.pages, evt := t.evt, spl := t.spl, mem := t.mem, resv := t.resv, slu := t.slu
                       cores := t.cores, mons := t.mons, waits := t.waits })
    ∧ ∀ (n src c' a' c'' a'' : Nat) (plane : List Byte), ¬ auxBad w → op = 2 → n = bits (nth 0 w 3) 23 0 → 0 < n → n ≤ 64 →
      src = bits (nth 0 w 2) 39 0 → homeOf s src = .sram c' a' →
      barrier s ⟨.aux k, src, .none, 0xFFF⟩ (.load (cdiv n 8) false) = .clear →
      plane = planeOf n (leNat (s.mem.read src (cdiv n 8))) → homeOf s dst = .sram c'' a'' →
      isMirrored s dst (64 * n) = false → barrier s ⟨.aux k, dst, .ack (.aux k), 0xFFF⟩ (.store plane) = .clear →
      ∃ t, exec (.maskExpand who k v) s = .next t ∧ t.mem = s.mem.write dst plane
        ∧ t.splice k = { s.splice k with auxRun := some { words := w } } ∧ (∀ d, watchersTold s t d)
        ∧ t = { s with pages := t.pages, evt := t.evt, spl := t.spl, mem := t.mem, resv := t.resv, slu := t.slu
                       cores := t.cores, mons := t.mons, waits := t.waits })
  ∧ ∀ (k hall add : Nat) (x : AuxRun) (s : State), s.settled → s.live → k < 12 → s.bankFinds = [] →
    (s.splice k).auxRun = some x → s.owes (· == .aux k) = false → (s.splice k).auxQueue = [] →
    hall = bits (nth 0 x.words 5) 51 0 → add = bits (nth 0 x.words 5) 63 52 →
    (x.bad = true ∨ add = 0 → ∃ t, exec (.auxCommandComplete k) s = .next t ∧ t = { s with spl := t.spl, slu := t.slu }
      ∧ t.splice k = { s.splice k with auxRun := none })
    ∧ ∀ c o, x.bad = false → add ≠ 0 → signalWord s c hall add o →
      barrier s ⟨.aux k, localOf hall, .signal, devOf hall⟩ (.sync (.add add)) = .clear →
      ∃ t, exec (.auxCommandComplete k) s = .next t ∧ signalled s { t with spl := s.spl } c add o ∧ t.cores = s.cores
        ∧ t.splice k = { s.splice k with auxRun := none }

/-! ## Ethernet host port (chapters 13 and 16) -/

/-- R364, R366, R367, R442: an ARP request for the IPv4 address and a neighbour solicitation for the device's own IPv6
address are answered, any other is dropped and counted; a PFC frame pauses the device's priorities that it names, or lets
what they hold leave; a link that goes down loses what waits, one that comes up is reported.
R376: a CNP cuts the rate of its context, by half of α of it but not below the least rate; the timer and the byte
counter raise it again, never above the line rate. The rounding is the model's choice (log entry 35).
Completion: under these conditions on the state and the operands alone, exec answers the next state described for arp,
neighbourSolicitation, pfcFrame, ethLinkDown, ethLinkUp, cnp, dcqcnTimer and dcqcnByteCounter. -/
def Obligations.HostFramesAndRates : Prop :=
  ((∀ (f : Frame) (target ip mac : Nat) (s : State), s.settled → ethReady s →
      (macTakes s f 0xFFFFFFFFFFFF ∧ s.sec.state ≠ 6 ∧ target = s.eth.ipv4 → ∃ t, exec (.arp f target ip mac) s = .next t
        ∧ t = { s with sent := .arp s.eth.ipv4 s.eth.mac ip mac :: s.sent, slu := t.slu })
      ∧ (¬ (macTakes s f 0xFFFFFFFFFFFF ∧ s.sec.state ≠ 6 ∧ target = s.eth.ipv4) →
        ∃ t, exec (.arp f target ip mac) s = .next t
          ∧ t = { s with eth := { s.eth with dropped := min 0xFFFF (s.eth.dropped + 1) }, slu := t.slu })
      ∧ (macTakes s f (solicited target) → ownIp s true target → ∃ t, exec (.neighbourSolicitation f target) s = .next t
        ∧ t = { s with sent := .neighbour target s.eth.mac f.srcIp :: s.sent, slu := t.slu })
      ∧ (¬ (macTakes s f (solicited target) ∧ ownIp s true target) → ∃ t, exec (.neighbourSolicitation f target) s = .next t
        ∧ t = { s with eth := { s.eth with dropped := min 0xFFFF (s.eth.dropped + 1) }, slu := t.slu }))
    ∧ (∀ (f : Frame) (prios mine : List Nat) (s : State), s.settled → ethReady s → f.len ≤ 9216 →
      f.other = false → f.dstMac = pfcMac ∨ f.dstMac = s.eth.mac → mine = prios.filter (fun p => p == prioA s || p == prioB s) →
      (∃ t, exec (.pfcFrame f prios true) s = .next t
        ∧ t = { s with eth := { s.eth with paused := t.eth.paused }, slu := t.slu }
        ∧ ∀ p, p ∈ t.eth.paused ↔ p ∈ s.eth.paused ∨ p ∈ mine)
      ∧ (s.eth.ingressB = [] → ∃ t, exec (.pfcFrame f prios false) s = .next t
        ∧ t = { s with eth := t.eth, sent := t.sent, slu := t.slu }
        ∧ t.eth = { s.eth with
            paused := s.eth.paused.filter fun p => !mine.contains p
            txHeld := t.eth.txHeld, ackPtr := t.eth.ackPtr, readPtr := t.eth.readPtr, qps := t.eth.qps }
        ∧ (∀ x ∈ t.eth.txHeld, x ∈ s.eth.txHeld) ∧ (∀ x ∈ s.eth.txHeld, x ∈ t.eth.txHeld ∨ x.msg ∈ t.sent)
        ∧ (∀ x ∈ s.sent, x ∈ t.sent)
        ∧ ((∀ x ∈ s.eth.txHeld, x.prio ∉ t.eth.paused ∧ txClass x.msg ≠ 3) → t.eth.txHeld = [] ∧ t.eth.qps = s.eth.qps)))
    ∧ (∀ s : State, s.settled → ethReady s → s.eth.ingressB = [] → ∃ t, exec .ethLinkDown s = .next t
      ∧ t = { s with eth := { s.eth with link := 0, downs := (s.eth.downs + 1) % 2 ^ 32, paused := [], txHeld := [] }
                     evt := t.evt, slu := t.slu } ∧ t.evt = (raiseEv .eth evEthLinkDown 0 s).evt)
    ∧ ∀ s : State, s.settled → ethCanRise s → ∃ t, exec .ethLinkUp s = .next t
      ∧ t = { s with eth := { s.eth with link := 3 }, evt := t.evt, slu := t.slu }
      ∧ t.evt = (raiseEv .eth evEthLinkUp 0 s).evt)
  ∧ ((∀ (f : Frame) (p : RocePkt) (i : Nat) (q : Qp) (s : State), s.settled → ethReady s →
      roceContext s f p = (some i, true) → f.ce = false → q = s.qp i → ∃ t, exec (.cnp f p) s = .next t
        ∧ (∀ j ≠ i, t.qp j = s.qp j) ∧ t = { s with eth := t.eth, slu := t.slu } ∧ t.eth = { s.eth with qps := t.eth.qps }
        ∧ t.qp i = { q with
            rt := q.rc, rc := max (s.field .roce 0x100 63 48 * 1000000) (q.rc - q.rc * q.alpha / 131072)
            alpha := q.alpha - q.alpha / 2 ^ s.field .roce 0x100 7 0 + 65536 / 2 ^ s.field .roce 0x100 7 0
            steps := 0, byteSteps := 0, cnpSeen := true, timerAt := s.now, bytes := 0 })
    ∧ (∀ (i : Nat) (q : Qp) (s : State), s.settled → i < 512 → dcqcnTimerDue s i → q = s.qp i →
      ∃ t, exec (.dcqcnTimer i) s = .next t ∧ (∀ j ≠ i, t.qp j = s.qp j) ∧ t = { s with eth := t.eth, slu := t.slu }
        ∧ t.eth = { s.eth with qps := t.eth.qps } ∧ (t.qp i).timerAt = s.now ∧ (t.qp i).steps = q.steps + 1
        ∧ (t.qp i).cnpSeen = false ∧ (t.qp i).rc ≤ 800000000
        ∧ (t.qp i).alpha = (if q.cnpSeen then q.alpha else q.alpha - q.alpha / 2 ^ s.field .roce 0x100 7 0)
        ∧ (q.rc ≤ q.rt → q.rt ≤ 800000000 → q.rc ≤ (t.qp i).rc))
    ∧ ∀ (i : Nat) (q : Qp) (s : State), s.settled → i < 512 → dcqcnBytesDue s i → q = s.qp i →
      ∃ t, exec (.dcqcnByteCounter i) s = .next t ∧ (∀ j ≠ i, t.qp j = s.qp j) ∧ t = { s with eth := t.eth, slu := t.slu }
        ∧ t.eth = { s.eth with qps := t.eth.qps } ∧ (t.qp i).bytes = q.bytes - s.field .roce 0x100 15 8 * 0x100000
        ∧ (t.qp i).byteSteps = q.byteSteps + 1 ∧ (t.qp i).alpha = q.alpha ∧ (t.qp i).rc ≤ 800000000)

/-- R368 to R374: an RDMA READ within one path MTU is answered with the bytes of memory, an RDMA WRITE of one packet is
written and acknowledged; either advances the expected PSN by one. A request whose R_Key does not grant it is answered with
a remote access error, a packet beyond the expected PSN with one sequence error, a SEND or a WRITE with immediate with an
invalid request; the errors but the sequence error put the context into ERROR.
R371, R373: an atomic on memory answers with the 8 bytes before it, which a FETCH_ADD replaces by the sum and a
CMP_SWAP, where they equal the compare value, by the swap value; the result is kept for a duplicate.
Completion: under these conditions on the state and the operands alone, exec answers the next state described for
rdmaRead, rdmaWrite, send, rdmaWriteWithImmediate, atomicFetchAdd and atomicCmpSwap. -/
def Obligations.RoceRequests : Prop :=
  (∀ (f : Frame) (p : RocePkt) (i : Nat) (q : Qp) (s : State), s.settled → s.bankFinds = [] → roceTurn s f p i →
      q = s.qp i →
      (∀ (c a : Nat), keyOk s p.va p.len p.rkey 0 → rwCheck s p.va p.len false = .serve → 0 < p.len →
        p.va % 4096 + p.len ≤ 4096 → p.len ≤ (if q.mtu = 0 then 1024 else q.mtu) → remoteOf s p.va = none →
        homeOf s (localOf p.va) = .sram c a →
        barrier s ⟨.host (qpn i), localOf p.va, .roce i p.psn 1, devOf p.va⟩ (.load p.len false) = .clear →
        ∃ t, exec (.rdmaRead f p []) s = .next t
          ∧ t.sent = .readResponse q.remoteQpn p.psn (s.mem.read (localOf p.va) p.len) :: s.sent
          ∧ t.qp i = { q with psn := (p.psn + 1) % 2 ^ 24, nakSent := false, data := [], doneBytes := 0
                              bytes := q.bytes + p.len, rateAt := max (1000 * s.now) q.rateAt + rateCost q p.len }
          ∧ (∀ j ≠ i, t.qp j = s.qp j) ∧ t.eth = { s.eth with qps := t.eth.qps, readPtr := qpn i + 1 }
          ∧ t = { s with eth := t.eth, sent := t.sent, slu := t.slu, evt := { s.evt with sramSeep := t.evt.sramSeep } })
      ∧ (∀ (c a : Nat), p.seg = .only → p.data.length = p.len → keyOk s p.va p.len p.rkey 1 →
        rwCheck s p.va p.len true = .serve → 0 < p.len → p.va % 4096 + p.len ≤ 4096 → remoteOf s p.va = none →
        homeOf s (localOf p.va) = .sram c a → roceRow (localOf p.va) = .memory → unwatched s (localOf p.va) p.len →
        barrier s ⟨.host (qpn i), localOf p.va, .roce i p.psn 0, devOf p.va⟩ (.store p.data) = .clear →
        ∃ t, exec (.rdmaWrite f p) s = .next t ∧ t.sent = .ack q.remoteQpn p.psn 0 :: s.sent
          ∧ t.mem = s.mem.write (localOf p.va) p.data
          ∧ t.qp i = { q with psn := (p.psn + 1) % 2 ^ 24, nakSent := false, data := [], doneBytes := 0, msg := none }
          ∧ (∀ j ≠ i, t.qp j = s.qp j) ∧ t.eth = { s.eth with qps := t.eth.qps, ackPtr := qpn i + 1 }
          ∧ t = { s with eth := t.eth, sent := t.sent, mem := t.mem, resv := t.resv, slu := t.slu })
      ∧ (¬ keyOk s p.va p.len p.rkey 0 → ∃ t, exec (.rdmaRead f p []) s = .next t
        ∧ t.sent = .ack q.remoteQpn p.psn 3 :: s.sent ∧ (t.qp i).state = 3 ∧ (∀ j ≠ i, t.qp j = s.qp j)
        ∧ t.eth = { s.eth with qps := t.eth.qps, ackPtr := qpn i + 1 }
        ∧ t.evt = (raiseEv .eth evRoceQpError (detUnit (qpn i) 0 evRoceKeyBad)
          (raiseEv .eth evRoceKeyBad (detUnit (qpn i) (bits p.rkey 31 26) 0) s)).evt
        ∧ t = { s with eth := t.eth, sent := t.sent, evt := t.evt, slu := t.slu })
      ∧ (∀ r ∈ [(Instr.send f p, RoceOp.send), (Instr.rdmaWriteWithImmediate f p, RoceOp.imm)],
        ∃ t, exec r.1 s = .next t ∧ t.sent = .ack q.remoteQpn p.psn 2 :: s.sent ∧ (t.qp i).state = 3
          ∧ (∀ j ≠ i, t.qp j = s.qp j) ∧ t.eth = { s.eth with qps := t.eth.qps, ackPtr := qpn i + 1 }
          ∧ t.evt = (raiseEv .eth evRoceQpError (detUnit (qpn i) 0 evRoceOpBad)
            (raiseEv .eth evRoceOpBad (detUnit (qpn i) (bthOpcode r.2 p) 0) s)).evt
          ∧ t = { s with eth := t.eth, sent := t.sent, evt := t.evt, slu := t.slu })
      ∧ ∀ (p' : RocePkt) (d : Nat), p' = { p with psn := (q.psn + d) % 2 ^ 24 } → 0 < d → d < 2 ^ 23 → q.nakSent = false →
        ∃ t, exec (.rdmaRead f p' []) s = .next t ∧ t.sent = .ack q.remoteQpn q.psn 1 :: s.sent
          ∧ t.qp i = { q with nakSent := true } ∧ (∀ j ≠ i, t.qp j = s.qp j)
          ∧ t = { s with eth := t.eth, sent := t.sent, slu := t.slu }
          ∧ t.eth = { s.eth with qps := t.eth.qps, ackPtr := qpn i + 1 })
  ∧ (∀ (f : Frame) (p : RocePkt) (i c a old : Nat) (q : Qp) (s : State), s.settled → s.bankFinds = [] → roceTurn s f p i →
      q = s.qp i → keyOk s p.va 8 p.rkey 2 → p.va % 8 = 0 → remoteOf s p.va = none → roceRow (localOf p.va) = .memory →
      homeOf s (localOf p.va) = .sram c a → unwatched s (localOf p.va) 8 → old = leNat (s.mem.read (localOf p.va) 8) →
      (∀ acc ∈ [Acc.fetchAdd p.swapAdd, .cmpSwap p.compare p.swapAdd],
        barrier s ⟨.host (qpn i), localOf p.va, .roce i p.psn 2, devOf p.va⟩ acc = .clear) →
      (∃ t, exec (.atomicFetchAdd f p []) s = .next t ∧ t.sent = .atomicResponse q.remoteQpn p.psn (word old) :: s.sent
        ∧ t.mem = s.mem.write (localOf p.va) (leBytes 8 ((old + p.swapAdd.toNat) % 2 ^ 64))
        ∧ t.qp i = { q with psn := (p.psn + 1) % 2 ^ 24, nakSent := false, data := [], doneBytes := 0
                            atomics := ((p.psn, word old) :: q.atomics).take 32 }
        ∧ (∀ j ≠ i, t.qp j = s.qp j) ∧ t.eth = { s.eth with qps := t.eth.qps, ackPtr := qpn i + 1 }
        ∧ t = { s with eth := t.eth, sent := t.sent, mem := t.mem, resv := t.resv, slu := t.slu
                       evt := { s.evt with sramSeep := t.evt.sramSeep } })
      ∧ ∃ t, exec (.atomicCmpSwap f p []) s = .next t ∧ t.sent = .atomicResponse q.remoteQpn p.psn (word old) :: s.sent
        ∧ t.mem = (if old = p.compare.toNat then s.mem.write (localOf p.va) (leBytes 8 p.swapAdd.toNat) else s.mem)
        ∧ t.qp i = { q with psn := (p.psn + 1) % 2 ^ 24, nakSent := false, data := [], doneBytes := 0
                            atomics := ((p.psn, word old) :: q.atomics).take 32 }
        ∧ (∀ j ≠ i, t.qp j = s.qp j) ∧ t.eth = { s.eth with qps := t.eth.qps, ackPtr := qpn i + 1 }
        ∧ t = { s with eth := t.eth, sent := t.sent, mem := t.mem, resv := t.resv, slu := t.slu
                       evt := { s.evt with sramSeep := t.evt.sramSeep } })

/-- R379: a REG_READ of one 8-byte register is answered with its value; a REG_WRITE writes it, into its pending copy where
its fields are RWB; an entry that names no register page stops the message.
R379, R380, R383: QP_SET gives a context its fields, and RESET clears it; QP_QUERY returns them; REGION_SET sets a
region, EVENT_DEST where event datagrams go.
Completion: under these conditions on the state and the operands alone, exec answers the next state described for
regRead, regWrite, qpSet, qpQuery, regionSet and eventDest. -/
def Obligations.TmpRequests : Prop :=
  (∀ (f : Frame) (m : List Byte) (p : PageId) (off : Nat) (d : RegDef) (s : State), s.settled → s.live → realPage p →
      regDef p off = some d → off % 8 = 0 → (∀ r ∈ s.eth.runs, r.id < s.eth.nextRun) →
      (tmpServed s f m 0x01 → tmpEntriesOk m false → tmpEntries m false = [(pageBase p + off, 8, 0)] →
        coilHole p off = false → coilDataOf p off = none → freeCounter p off = false →
        barrier s ⟨.tmp f.srcIp f.srcPort, pageBase p + off, .tmpEntry s.eth.nextRun, 0xFFF⟩ (.load 8 false) = .clear →
        ∃ t, exec (.regRead f m) s = .next t ∧ tmpReplied s t f m 0 0 (.bytes (leBytes 8 (regValue p off s).1))
          ∧ t.eth = { s.eth with nextRun := s.eth.nextRun + 1, kept := t.eth.kept }
          ∧ t = { s with eth := t.eth, sent := t.sent, slu := t.slu })
      ∧ (∀ v : Nat, tmpServed s f m 0x02 → tmpEntriesOk m true → tmpEntries m true = [(pageBase p + off, 8, v)] →
        p ≠ .knot → d.rw = 0 → d.wo = 0 → d.rwb ≠ 0 → v < 2 ^ 64 →
        barrier s ⟨.tmp f.srcIp f.srcPort, pageBase p + off, .tmpEntry s.eth.nextRun, 0xFFF⟩ (.store (leBytes 8 v))
          = .clear →
        ∃ t, exec (.regWrite f m) s = .next t ∧ tmpReplied s t f m 0 0 (.bytes [])
          ∧ t = { s with eth := t.eth, sent := t.sent, pages := t.pages, slu := t.slu } ∧ t.eth.runs = s.eth.runs
          ∧ (∀ x, t.reg p x = s.reg p x) ∧ (t.pendOf p off).mask = (s.pendOf p off).mask ||| d.rwb
          ∧ (t.pendOf p off).val &&& d.rwb = v &&& d.rwb ∧ (t.pendOf p off).released = false
          ∧ (∀ x ≠ off, t.pendOf p x = s.pendOf p x) ∧ ∀ r ≠ p, t.page r = s.page r)
      ∧ ∀ a c a', tmpServed s f m 0x01 → tmpEntriesOk m false → tmpEntries m false = [(a, 8, 0)] → homeOf s a = .sram c a' →
        ∃ t, exec (.regRead f m) s = .next t
          ∧ tmpReplied s t f m evAddrUnmapped 0 (.bytes []) ∧ t.eth.runs = s.eth.runs
          ∧ t = { s with eth := t.eth, sent := t.sent, evt := t.evt, slu := t.slu })
  ∧ (∀ (f : Frame) (m : List Byte) (s : State), s.settled →
      (∀ x : QpArgs, tmpServed s f m 0x03 → qpArgsOk x → (s.qp x.index).serving = none → (s.qp x.index).waiting = [] →
        ∃ t, exec (.qpSet f m x) s = .next t ∧ tmpReplied s t f m 0 0 (.bytes []) ∧ (∀ j ≠ x.index, t.qp j = s.qp j)
          ∧ t = { s with eth := t.eth, sent := t.sent, slu := t.slu }
          ∧ t.eth = { s.eth with qps := t.eth.qps, kept := t.eth.kept }
          ∧ (x.state ≠ 0 → contextArgs x.index (t.qp x.index) = x ∧ (t.qp x.index).atomics = (s.qp x.index).atomics
            ∧ (t.qp x.index).rc = (s.qp x.index).rc)
          ∧ (x.state = 0 → contextArgs x.index (t.qp x.index) = { x with psn := 0 } ∧ (t.qp x.index).atomics = []
            ∧ (t.qp x.index).outstanding = 0))
      ∧ (∀ n < 512, tmpServed s f m 0x04 → ∃ t, exec (.qpQuery f m n) s = .next t
        ∧ tmpReplied s t f m 0 0 (.context (contextArgs n (s.qp n))) ∧ t.eth = { s.eth with kept := t.eth.kept }
        ∧ t = { s with eth := t.eth, sent := t.sent, slu := t.slu })
      ∧ (∀ x : RegionArgs, tmpServed s f m 0x05 → regionArgsOk x → ∃ t, exec (.regionSet f m x) s = .next t
        ∧ tmpReplied s t f m 0 0 (.bytes []) ∧ t.eth = { s.eth with regions := t.eth.regions, kept := t.eth.kept }
        ∧ aget {} x.index t.eth.regions = ⟨x.base, x.length, x.key, x.rights, x.en⟩
        ∧ (∀ j ≠ x.index, aget ({} : Region) j t.eth.regions = aget {} j s.eth.regions)
        ∧ t = { s with eth := t.eth, sent := t.sent, slu := t.slu })
      ∧ ∀ x : DestArgs, tmpServed s f m 0x06 → x.port < 2 ^ 16 → x.mac < 2 ^ 48 →
        ∃ t, exec (.eventDest f m x) s = .next t ∧ tmpReplied s t f m 0 0 (.bytes [])
          ∧ t.eth = { s.eth with destV6 := x.v6, destIp := x.ip, destPort := x.port, destMac := x.mac, destEn := x.en
                                 kept := t.eth.kept }
          ∧ t = { s with eth := t.eth, sent := t.sent, slu := t.slu })

/-- R446, R447, R449: FW_BEGIN starts to erase a slot where no update is in work and the other slot holds a verified image,
or in SAFE, and is else refused with cause 10; when the slot is erased, FW_CHUNK programs its bytes and counts those that
were not programmed before; FW_COMMIT verifies the slot and keeps the cause, and with its flags burns the SVN and activates;
FW_STATUS reports.
Completion: under these conditions on the state and the operands alone, exec answers the next state described for
fwBegin, eraseComplete, fwChunk, fwCommit and fwStatus. -/
def Obligations.FirmwareUpdate : Prop :=
  ∀ (f : Frame) (m : List Byte) (s : State), s.settled →
    (∀ slot, tmpServed s f m 0x10 → fwBeginOk m → slot = msgField m 16 1 →
      ((s.sec.fwState = 0 ∨ s.sec.fwState = 4 ∨ s.sec.fwState = 5) ∧ (s.sec.state = 6 ∨ slotVerified s (1 - slot)) →
        ∃ t, exec (.fwBegin f m) s = .next t ∧ tmpReplied s t f m 0 0 (.bytes []) ∧ slot ∈ t.sec.erased
          ∧ t.sec = { s.sec with
              fwState := 1, fwSlot := slot, fwSize := msgField m 17 4, fwBytes := 0, fwDone := [], erased := t.sec.erased }
          ∧ t = { s with sec := t.sec, eth := t.eth, sent := t.sent, slu := t.slu })
      ∧ (¬ ((s.sec.fwState = 0 ∨ s.sec.fwState = 4 ∨ s.sec.fwState = 5)
          ∧ (s.sec.state = 6 ∨ slotVerified s (1 - slot))) →
        ∃ t, exec (.fwBegin f m) s = .next t ∧ tmpReplied s t f m evFwUpdateBad 10 (.bytes [])
          ∧ t = { s with sec := { s.sec with fwCause := 10 }, eth := t.eth, sent := t.sent, evt := t.evt, slu := t.slu }))
    ∧ (ethReady s → s.sec.fwState = 1 → ∃ t, exec .eraseComplete s = .next t
      ∧ t = { s with flash := t.flash, sec := { s.sec with fwState := 2 }, slu := t.slu }
      ∧ ∀ a, (slotBase s.sec.fwSlot ≤ a → a < slotBase s.sec.fwSlot + 0x1800000 → t.flash.get a = 0#8)
        ∧ (a < slotBase s.sec.fwSlot ∨ slotBase s.sec.fwSlot + 0x1800000 ≤ a → t.flash.get a = s.flash.get a))
    ∧ (∀ off data, tmpServed s f m 0x11 → fwChunkOk m → off = msgField m 16 4 → data = m.drop 24 → s.sec.fwState = 2 →
      off + data.length ≤ s.sec.fwSize → (∀ i, off ≤ i → i < off + data.length → fwProgrammed s i = false) →
      ∃ t, exec (.fwChunk f m) s = .next t ∧ tmpReplied s t f m 0 0 (.bytes [])
        ∧ t.flash = s.flash.write (slotBase s.sec.fwSlot + off) data
        ∧ t.sec = { s.sec with fwBytes := s.sec.fwBytes + data.length, fwDone := (off, data.length) :: s.sec.fwDone }
        ∧ t = { s with sec := t.sec, eth := t.eth, sent := t.sent, flash := t.flash, slu := t.slu })
    ∧ (∀ slot cause, tmpServed s f m 0x12 → fwCommitOk m → slot = msgField m 16 1 →
      cause = checkImage s.flash slot false s.sec.svn s.sec.keyHash →
      (cause ≠ 0 → ∃ t, exec (.fwCommit f m) s = .next t ∧ tmpReplied s t f m evFwUpdateBad cause (.bytes [])
        ∧ t.sec.fwState = 5 ∧ t.sec.fwSlot = slot ∧ t.sec.svn = s.sec.svn ∧ t.sec.activateAt = s.sec.activateAt
        ∧ (slotReport t slot).1 = cause ∧ t.sec.fwCause = cause
        ∧ t = { s with sec := t.sec, eth := t.eth, sent := t.sent, evt := t.evt, slu := t.slu })
      ∧ (cause = 0 → bit (msgField m 17 1) 1 = false → ∃ t, exec (.fwCommit f m) s = .next t
        ∧ tmpReplied s t f m 0 0 (.bytes []) ∧ t.sec.fwState = 4 ∧ t.sec.fwSlot = slot ∧ t.sec.svn = s.sec.svn
        ∧ t.sec.activateAt = (if bit (msgField m 17 1) 0 then some (s.now + 1000) else s.sec.activateAt)
        ∧ (slotReport t slot).1 = 0
        ∧ t = { s with sec := t.sec, eth := t.eth, sent := t.sent, slu := t.slu }))
    ∧ (tmpServed s f m 0x13 → m.length = 16 → ∃ t, exec (.fwStatus f m) s = .next t
      ∧ tmpReplied s t f m 0 0 (.fwStatus (secValue s 0x138) (slotReport s 0) (slotReport s 1))
      ∧ t = { s with eth := t.eth, sent := t.sent, slu := t.slu })

/-- R379, R451: ATTEST begins a quote where none is being built and else waits; the complete quote, whose signature is not
determined, leaves, and the next one begins; IDENTITY returns the device's identity, with the certificate where that is
good.
R381, R382: a request from a host that is not on the enforced allowlist is counted, and the first of a window raises
TMP_DENIED, once more when a new window has begun; a malformed one is answered with TMP_FORMAT; a request that has been
answered is answered again from the kept responses. While PRIO_B is paused a request waits in the ingress buffer, which
pauses the host beyond 768 KiB (R366; the wait itself is the model's choice, log entry 75).
Completion: under these conditions on the state and the operands alone, exec answers the next state described for
attest, quoteBuilt, identity, fwStatus and tmpDenialWindow. -/
def Obligations.AttestationAndRefusals : Prop :=
  (∀ (f : Frame) (m : List Byte) (s : State), s.settled →
      (tmpServed s f m 0x20 → m.length = 48 → s.sec.idOk = true →
        (s.sec.quote = none → ∃ t, exec (.attest f m) s = .next t ∧ t = { s with sec := { s.sec with
          quote := some (f.srcIp, f.srcPort, msgField m 4 4, m.drop 16, s.now) }, slu := t.slu })
        ∧ (s.sec.quote ≠ none → ∃ t, exec (.attest f m) s = .next t ∧ t = { s with sec := { s.sec with
          attests := s.sec.attests ++ [(f.srcIp, f.srcPort, msgField m 4 4, m.drop 16)] }, slu := t.slu }))
      ∧ (tmpServed s f m 0x20 → m.length = 48 → s.sec.idOk = false → ∃ t, exec (.attest f m) s = .next t
        ∧ tmpReplied s t f m evSecIdentBad 0 (.bytes []) ∧ t = { s with eth := t.eth, sent := t.sent, slu := t.slu })
      ∧ (∀ ip port seq nonce t0, s.live → s.eth.link = 3 → prioB s ∉ s.eth.paused →
        s.sec.quote = some (ip, port, seq, nonce, t0) → ∃ t sig, exec .quoteBuilt s = .next t ∧ sig.length = 64
          ∧ t.sent = .tmp ip port ⟨0xA0, seq, 0, 0, .bytes (quoteBytes s nonce t0 ++ sig)⟩ :: s.sent
          ∧ t.sec = { s.sec with attests := s.sec.attests.drop 1, quote := t.sec.quote }
          ∧ (s.sec.attests = [] → t.sec.quote = none)
          ∧ (∀ a b d n rest, s.sec.attests = (a, b, d, n) :: rest → t.sec.quote = some (a, b, d, n, s.now))
          ∧ t = { s with sec := t.sec, eth := t.eth, sent := t.sent, freeCount := t.freeCount, slu := t.slu })
      ∧ (tmpServed s f m 0x21 → m.length = 16 → ∃ t, exec (.identity f m) s = .next t
        ∧ tmpReplied s t f m 0 0 (.identity 0x0D10 s.sec.baseStep s.sec.metalStep s.sec.fwVer s.deviceId
          (if s.sec.idOk then certificate s.flash else []))
        ∧ t = { s with eth := t.eth, sent := t.sent, slu := t.slu }))
  ∧ ((∀ (f : Frame) (m : List Byte) (s : State), s.settled → ethReady s → msgField m 3 1 = 0x13 → ipTakes s f →
      (prioB s ∈ s.eth.paused → ingressBytesB s + f.len ≤ 0x100000 → ∃ t, exec (.fwStatus f m) s = .next t
        ∧ t = { s with eth := { s.eth with ingressB := s.eth.ingressB ++ [(.fwStatus, f, m)] }, slu := t.slu, sent :=
          if 0xC0000 < ingressBytesB s + f.len then .pfc (prioB s) :: s.sent else s.sent })
      ∧ (¬ tmpAllowed s f → prioB s ∉ s.eth.paused → ∃ t, exec (.fwStatus f m) s = .next t
        ∧ t = { s with eth := t.eth, evt := t.evt, slu := t.slu }
        ∧ t.eth = { s.eth with denied := min 0xFFFF (s.eth.denied + 1), deniedWindow := denialWindow s }
        ∧ (s.eth.deniedWindow = denialWindow s → t.evt = s.evt)
        ∧ (s.eth.deniedWindow ≠ denialWindow s → t.evt = (raiseEv .eth evTmpDenied 0 s).evt))
      ∧ (tmpAllowed s f → tmpKept s f.srcIp f.srcPort (msgField m 4 4) = none →
        tmpBusy s f.srcIp f.srcPort (msgField m 4 4) = false → ¬ (tmpHeaderOk s m ∧ m.length = 16) →
        prioB s ∉ s.eth.paused → ∃ t, exec (.fwStatus f m) s = .next t ∧ tmpReplied s t f m evTmpFormat 0 (.bytes [])
          ∧ t.evt = (raiseEv .eth evTmpFormat (detUnit 0x13 0 0) s).evt
          ∧ t = { s with eth := t.eth, sent := t.sent, evt := t.evt, slu := t.slu })
      ∧ ∀ r, tmpAllowed s f → tmpKept s f.srcIp f.srcPort (msgField m 4 4) = some r → prioB s ∉ s.eth.paused →
        ∃ t, exec (.fwStatus f m) s = .next t ∧ t = { s with sent := .tmp f.srcIp f.srcPort r :: s.sent, slu := t.slu })
    ∧ ∀ s : State, s.settled → s.powered → s.eth.deniedWindow ≠ denialWindow s → ∃ t, exec .tmpDenialWindow s = .next t
      ∧ t = { s with eth := { s.eth with deniedWindow := 0 }, slu := t.slu })

/-! ## The machine as a whole -/

/-- The step runs the command at the front of the queue with the queue's rest; on an empty queue a dike tick passes, which
is the model's choice (log entry 3): the knot table takes what has reached it, frames that wait may leave, the Ethernet link
comes on to training. No word spells a command, since no row of the table gives bits. -/
def Obligations.StepRunsFrontCommand : Prop :=
  (∀ (c : Instr) (rest : List Instr) (s : State), s.pending = c :: rest → step s = exec c { s with pending := rest })
  ∧ (∀ s : State, s.pending = [] → ∃ t, step s = .next t ∧ t.pending = []
    ∧ t.now = (if s.sec.state = 0 then s.now else s.now + 1) ∧ t.module.time = (knotTick s).module.time + 1
    ∧ (s.knotIn = [] → t = { s with
        now := t.now, eth := t.eth, sent := t.sent, freeCount := t.freeCount
        module := { s.module with time := s.module.time + 1 } })
    ∧ (s.knotIn = [] → s.eth.txHeld = [] → t.sent = s.sent ∧ t.eth = { s.eth with link := t.eth.link })
    ∧ (s.knotIn = [] → 2 ≤ s.eth.link → t.eth.link = s.eth.link))
  ∧ ∀ (s : State) (nbits w : Nat), decodeTableWord nbits w = none ∧ s.withFetchWord nbits w = s

/-- R413: every command ends in a next state, with the queue as it was; none but PWR_GOOD touches the dike time counter. -/
def Obligations.EveryCommandCompletes : Prop :=
  ∀ (c : Instr) (s : State), ∃ t, exec c s = .next t ∧ t.pending = s.pending ∧ (c ≠ .pwrGood → t.now = s.now)

/-- R413: a run takes the commands of its queue in order, each on the state that the one before it left, and stops nowhere;
after the last it goes on for ever, and each further step is one dike tick of a device that is on. -/
def Obligations.QueueRunsToItsEnd : Prop :=
  ∀ s : State, (∃ t, Host.Core.run core s.pending.length s = .next t ∧ t.pending = []
    ∧ (.pwrGood ∉ s.pending → t.now = s.now)
    ∧ ∀ n, ∃ u, Host.Core.run core (s.pending.length + n) s = .next u ∧ u.pending = []
      ∧ (t.knotIn = [] → u.now = (if t.sec.state = 0 then t.now else t.now + n) ∧ u.mem = t.mem ∧ u.sec = t.sec))
    ∧ ∀ (c : Instr) (rest : List Instr) (t : State), s.pending = c :: rest → exec c { s with pending := rest } = .next t →
      ∀ n, Host.Core.run core (n + 1) s = Host.Core.run core n t

/-- Every step keeps the invariant: the memories' canonical form, a legal device state, sound tag descriptors and message
numbers. -/
def Obligations.InvariantKept : Prop :=
  ∀ s t : State, s.inv → step s = .next t → t.inv

/-- R413, R417, R434, R400: after reset the dike time is 0, the device is in BOOT, every register of every page holds its
reset value, every steward is IDLE, nothing waits, and the invariant holds. That memory reads zero is the model's choice
(log entry 2). -/
def Obligations.ResetState : Prop :=
  State.reset.inv ∧ State.reset.settled = true ∧ State.reset.now = 0 ∧ State.reset.sec.state = 1
    ∧ State.reset.pending = [] ∧ (∀ p off, State.reset.reg p off = regReset p off)
    ∧ (∀ c, (State.reset.core c).stw.st = .idle ∧ ∀ n, (State.reset.eport c n).coil = [])
    ∧ ∀ a, State.reset.mem.get a = 0#8

/-- A memory is its bytes: a write leaves its bytes at its addresses and every other byte as it was, a read of n bytes is
the n bytes there, and memories in the canonical form that read alike are equal. -/
def Obligations.MemoryIsItsBytes : Prop :=
  (∀ (m : Mem) (a x : Nat) (bs : List Byte), m.wf → (m.write a bs).get x
    = if a ≤ x ∧ x < a + bs.length then nth 0#8 bs (x - a) else m.get x)
  ∧ (∀ (m : Mem) (a n : Nat), m.wf → m.read a n = (List.range n).map fun i => m.get (a + i))
  ∧ ∀ m m' : Mem, m.wf → m'.wf → (∀ x, m.get x = m'.get x) → m = m'

/-- R303, R304, R290: a packet's header gives back every field it was made of, at every value the field holds, also from the
bytes of the packet; a flit has 256 bytes, passes its check and gives back its numbers and its payload. -/
def Obligations.HeaderRoundTrip : Prop :=
  (∀ (opc dst src addr len reqId status aux operand : Nat) (ordered cancel : Bool) (ttd : Option Int) (data : List Byte)
    (p : Packet), opc < 2 ^ 5 → dst < 2 ^ 12 → src < 2 ^ 12 → addr < 2 ^ 40 → 1 ≤ len → len ≤ 4096 → reqId < 2 ^ 16 →
    status < 2 ^ 16 → aux < 2 ^ 12 → operand < 2 ^ 64 → (∀ d ∈ ttd, -(2 ^ 23) ≤ d ∧ d < 2 ^ 23) →
    p = mkPacket opc ordered ttd dst src addr len reqId status aux cancel operand data →
    pOpc p = opc ∧ pVl p = opcVl opc ∧ pOrdered p = ordered ∧ pBulk p = ttd.isNone ∧ pHops p = 0 ∧ pDst p = dst
      ∧ pSrc p = src ∧ pTtd p = ttd.getD 0 ∧ pAddr p = addr ∧ pLen p = len ∧ pReqId p = reqId ∧ pStatus p = status
      ∧ pAux p = aux ∧ pCancel p = cancel ∧ p.w3.toNat = operand ∧ pReservedOk p = true
      ∧ parseHeader (packetBytes p) = { p with data := [] })
  ∧ ∀ (seq ack : Nat) (payload f : List Byte), seq < 2 ^ 16 → ack < 2 ^ 16 → payload.length ≤ 244 →
    f = mkFlit seq ack payload → f.length = 256 ∧ crc32c (f.take 252) = leNat (f.drop 252)
      ∧ bits (leNat (f.take 8)) 15 0 = seq ∧ bits (leNat (f.take 8)) 31 16 = ack ∧ bits (leNat (f.take 8)) 63 32 = 1
      ∧ ((f.drop 8).take 244) = payload ++ List.replicate (244 - payload.length) 0#8

/-- R15: polder p = tile × 40 + row is one row of 64 cores of a tile, cores 64 × p to 64 × p + 63. -/
def Obligations.PolderHoldsItsCores : Prop :=
  (∀ tile row col, tile < 4 → row < 40 → col < 64 → polderOf (2560 * tile + 64 * row + col) = tile * 40 + row)
    ∧ (∀ c < 10240, polderOf c < 160) ∧ ∀ c p, polderOf c = p ↔ 64 * p ≤ c ∧ c ≤ 64 * p + 63

/-- R462: a raise is dropped, and counted, where its input queue is full, and where its page has logged PAGE_LIMIT records
of the same local event in the current window of 100,000 ticks; it is dropped in no other case.
Completion: under these conditions on the state and the operands alone, exec answers the next state described for
eventLog. -/
def Obligations.RaisesDropped : Prop :=
  (∀ (p : PageId) (code detail : Nat) (s t : State), t = raiseEv p code detail s →
    (256 ≤ (nth [] s.evt.inputs (collectorInput p)).length →
      t = { s with evt := { s.evt with dropped := (s.evt.dropped + 1) % 2 ^ 32 } })
    ∧ ((nth [] s.evt.inputs (collectorInput p)).length < 256 → t = { s with evt := { s.evt with
        inputs := put s.evt.inputs (collectorInput p)
          (nth [] s.evt.inputs (collectorInput p) ++ [⟨p, code, s.now, detail⟩]) } }))
  ∧ ∀ (s : State) (i count limit : Nat) (r : Raise) (q : List Raise), s.powered → servedInputs s = [i] →
    nth [] s.evt.inputs i = r :: q → limit = s.field .evt 0x100 15 0 →
    count = (if s.evt.window < s.now / 100000 then 0 else aget 0 (r.code % 64) (s.page r.page).evCount) →
    ∃ t, exec .eventLog s = .next t ∧ t.evt.inputs = put s.evt.inputs i q
      ∧ (limit ≠ 0 ∧ limit ≤ count → t.evt.log = s.evt.log ∧ t.evt.next = s.evt.next
        ∧ t.evt.dropped = (s.evt.dropped + 1) % 2 ^ 32)
      ∧ (¬ (limit ≠ 0 ∧ limit ≤ count) → t.evt.next = s.evt.next + 1 ∧ t.evt.dropped = s.evt.dropped
        ∧ aget 0 (r.code % 64) (t.page r.page).evCount = count + 1)

/-- R25: an HBM address in a retired stack, or in its sync alias, is unmapped; a retired pseudo-channel makes no address
unmapped. -/
def Obligations.RetiredStackUnmapped : Prop :=
  (∀ (s : State) (q : Req) (acc : Acc) (k o : Nat), (s.stack k).state = 2 → k < 12 →
    (q.addr = k * 0x1000000000 + o ∧ o < 0x1000000000) ∨ (q.addr = 0xCC00000000 + k * 0x40000000 + o ∧ o < 0x40000000) →
    homeOf s q.addr = .hole ∧ barrier s q acc = .refused evAddrUnmapped q.addr)
  ∧ ∀ (s : State) (k pc a : Nat), homeOf (s.setStack k { s.stack k with outPc := some pc }) a = homeOf s a

/-- R26, R28, R37, R171: an access that meets a barrier with an event is refused with it: nothing is read or written, the
event with the address is raised on the issuer's page, and a steward takes an access fault that tells the event; a hole is
ADDR_UNMAPPED to everyone, the registers of a chip page ADDR_PROTECTED to engines and other devices. -/
def Obligations.AccessErrors : Prop :=
  (∀ (s : State) (q : Req) (acc : Acc), homeOf s q.addr = .hole → barrier s q acc = .refused evAddrUnmapped q.addr)
  ∧ (∀ (s : State) (q : Req) (acc : Acc) (p : Option PageId) (off c n : Nat), homeOf s q.addr = .chip p off →
    q.who ∈ [Issuer.arrays c n, .side c n, .vector c n, .strand c n n, .device c n, .splice c n, .aux c, .sender c, .knot,
      .fanout] → barrier s q acc = .refused evAddrProtected q.addr)
  ∧ ∀ (c rd n len va cause code a : Nat) (sg : Bool) (q : Req) (s : State), s.settled → s.live →
    q.who = .steward c → q.cont = .toReg c rd n sg → q.addr < 0xC000000000 → 1 ≤ n → n ≤ 8 →
    barrier s q (.load n false) = .refused code a → awaits s c len va cause → (s.core c).stw.csrVal 0x305 ≠ 0 →
      code < 2 ^ 16 → cause < 64 →
    ∃ t, exec (.hbmRead q n .ordinary []) s = .next t ∧ (∀ d ≠ c, t.core d = s.core d)
      ∧ t = { s with cores := t.cores, hbmStacks := t.hbmStacks, evt := t.evt, slu := t.slu }
      ∧ t.evt = (raiseEv (.core c) code (detAddr a q.dev (.steward c)) s).evt
      ∧ (t.core c).stw.x = (s.core c).stw.x ∧ (t.core c).stw.csrVal 0x7C1 = code
      ∧ (t.core c).stw.csrVal 0x341 = (s.core c).stw.pc.toNat ∧ (t.core c).stw.csrVal 0x342 = cause
      ∧ (t.core c).stw.user = false ∧ (t.core c).stw.wait = .nothing
end

