-- ==== Sys2Proof/Laws/State.lean ====
section
/-! SUPPORT. Reading back what an update of the state has written, and what it leaves alone. -/

namespace Sys2Proof.Machine

/-! ## Association lists -/

@[simp] theorem alookup_aset_self {κ α : Type} [DecidableEq κ] (k : κ) (v : α) (l : List (κ × α)) :
    alookup k (aset k v l) = some v := by
  induction l with
  | nil => simp [aset, alookup]
  | cons x r ih =>
    obtain ⟨k', v'⟩ := x
    by_cases h : k' = k <;> simp [aset, alookup, h, ih]

theorem alookup_aset_ne {κ α : Type} [DecidableEq κ] {j k : κ} (h : j ≠ k) (v : α) (l : List (κ × α)) :
    alookup j (aset k v l) = alookup j l := by
  induction l with
  | nil => simp [aset, alookup, Ne.symm h]
  | cons x r ih =>
    obtain ⟨k', v'⟩ := x
    by_cases h' : k' = k
    · subst h'; simp [aset, alookup, Ne.symm h]
    · by_cases hj : k' = j <;> simp_all [aset, alookup]

@[simp] theorem aget_aset_self {κ α : Type} [DecidableEq κ] (d : α) (k : κ) (v : α) (l : List (κ × α)) :
    aget d k (aset k v l) = v := by simp [aget]

theorem aget_aset_ne {κ α : Type} [DecidableEq κ] {j k : κ} (h : j ≠ k) (d v : α) (l : List (κ × α)) :
    aget d j (aset k v l) = aget d j l := by simp [aget, alookup_aset_ne h]

theorem aget_aset {κ α : Type} [DecidableEq κ] (d : α) (j k : κ) (v : α) (l : List (κ × α)) :
    aget d j (aset k v l) = if j = k then v else aget d j l := by
  by_cases h : j = k
  · subst h; simp
  · simp [h, aget_aset_ne h]

/-- The value at a key is the default or stands in the list. -/
theorem alookup_mem {κ α : Type} [DecidableEq κ] {k : κ} {v : α} {l : List (κ × α)} (h : alookup k l = some v) :
    (k, v) ∈ l := by
  induction l with
  | nil => simp [alookup] at h
  | cons x r ih =>
    obtain ⟨k', v'⟩ := x
    by_cases hk : k' = k
    · subst hk; simp [alookup] at h; simp [h]
    · simp [alookup, hk] at h; exact List.mem_cons_of_mem _ (ih h)

/-! ## Units by number -/

variable (s : State)

@[simp] theorem setCore_self (i : Nat) (v : Core) : (s.setCore i v).core i = v := by
  simp [State.setCore, State.core]

theorem setCore_other {i j : Nat} (h : j ≠ i) (v : Core) : (s.setCore i v).core j = s.core j := by
  simp [State.setCore, State.core, aget_aset_ne h]

@[simp] theorem setCore_frame (i : Nat) (v : Core) :
    (s.setCore i v).pending = s.pending ∧ (s.setCore i v).now = s.now ∧
    (s.setCore i v).freeCount = s.freeCount ∧ (s.setCore i v).sent = s.sent ∧ (s.setCore i v).mem = s.mem ∧
    (s.setCore i v).wmem = s.wmem ∧ (s.setCore i v).flash = s.flash ∧ (s.setCore i v).hbmStacks = s.hbmStacks ∧
    (s.setCore i v).spl = s.spl ∧ (s.setCore i v).ports = s.ports ∧ (s.setCore i v).pages = s.pages ∧
    (s.setCore i v).chipSlots = s.chipSlots ∧ (s.setCore i v).hallSlots = s.hallSlots ∧
    (s.setCore i v).fab = s.fab ∧ (s.setCore i v).eth = s.eth ∧ (s.setCore i v).evt = s.evt ∧
    (s.setCore i v).slu = s.slu ∧ (s.setCore i v).gov = s.gov ∧ (s.setCore i v).sec = s.sec ∧
    (s.setCore i v).module = s.module ∧ (s.setCore i v).pres = s.pres ∧ (s.setCore i v).held = s.held ∧
    (s.setCore i v).parked = s.parked ∧ (s.setCore i v).knotIn = s.knotIn ∧ (s.setCore i v).images = s.images ∧
    (s.setCore i v).answers = s.answers ∧ (s.setCore i v).bankFinds = s.bankFinds ∧
    (s.setCore i v).resv = s.resv ∧ (s.setCore i v).mons = s.mons ∧ (s.setCore i v).waits = s.waits ∧
    (s.setCore i v).stack = s.stack ∧ (s.setCore i v).splice = s.splice ∧ (s.setCore i v).port = s.port ∧
    (s.setCore i v).page = s.page ∧ (s.setCore i v).polder = s.polder ∧ (s.setCore i v).chipSlot = s.chipSlot ∧
    (s.setCore i v).hallSlot = s.hallSlot ∧ (s.setCore i v).qp = s.qp :=
  ⟨rfl, rfl, rfl, rfl, rfl, rfl, rfl, rfl, rfl, rfl, rfl, rfl, rfl, rfl, rfl, rfl, rfl, rfl, rfl, rfl, rfl,
rfl, rfl, rfl, rfl, rfl, rfl, rfl, rfl, rfl, rfl, rfl, rfl, rfl, rfl, rfl, rfl, rfl⟩

@[simp] theorem setStack_self (i : Nat) (v : Stack) : (s.setStack i v).stack i = v := by
  simp [State.setStack, State.stack]

theorem setStack_other {i j : Nat} (h : j ≠ i) (v : Stack) : (s.setStack i v).stack j = s.stack j := by
  simp [State.setStack, State.stack, aget_aset_ne h]

@[simp] theorem setStack_frame (i : Nat) (v : Stack) :
    (s.setStack i v).pending = s.pending ∧ (s.setStack i v).now = s.now ∧
    (s.setStack i v).freeCount = s.freeCount ∧ (s.setStack i v).sent = s.sent ∧ (s.setStack i v).mem = s.mem ∧
    (s.setStack i v).wmem = s.wmem ∧ (s.setStack i v).flash = s.flash ∧ (s.setStack i v).cores = s.cores ∧
    (s.setStack i v).spl = s.spl ∧ (s.setStack i v).ports = s.ports ∧ (s.setStack i v).pages = s.pages ∧
    (s.setStack i v).chipSlots = s.chipSlots ∧ (s.setStack i v).hallSlots = s.hallSlots ∧
    (s.setStack i v).fab = s.fab ∧ (s.setStack i v).eth = s.eth ∧ (s.setStack i v).evt = s.evt ∧
    (s.setStack i v).slu = s.slu ∧ (s.setStack i v).gov = s.gov ∧ (s.setStack i v).sec = s.sec ∧
    (s.setStack i v).module = s.module ∧ (s.setStack i v).pres = s.pres ∧ (s.setStack i v).held = s.held ∧
    (s.setStack i v).parked = s.parked ∧ (s.setStack i v).knotIn = s.knotIn ∧ (s.setStack i v).images = s.images ∧
    (s.setStack i v).answers = s.answers ∧ (s.setStack i v).bankFinds = s.bankFinds ∧
    (s.setStack i v).resv = s.resv ∧ (s.setStack i v).mons = s.mons ∧ (s.setStack i v).waits = s.waits ∧
    (s.setStack i v).core = s.core ∧ (s.setStack i v).splice = s.splice ∧ (s.setStack i v).port = s.port ∧
    (s.setStack i v).page = s.page ∧ (s.setStack i v).polder = s.polder ∧
    (s.setStack i v).chipSlot = s.chipSlot ∧ (s.setStack i v).hallSlot = s.hallSlot ∧ (s.setStack i v).qp = s.qp :=
  ⟨rfl, rfl, rfl, rfl, rfl, rfl, rfl, rfl, rfl, rfl, rfl, rfl, rfl, rfl, rfl, rfl, rfl, rfl, rfl, rfl, rfl,
rfl, rfl, rfl, rfl, rfl, rfl, rfl, rfl, rfl, rfl, rfl, rfl, rfl, rfl, rfl, rfl, rfl⟩

@[simp] theorem setSplice_self (i : Nat) (v : Spl) : (s.setSplice i v).splice i = v := by
  simp [State.setSplice, State.splice]

theorem setSplice_other {i j : Nat} (h : j ≠ i) (v : Spl) : (s.setSplice i v).splice j = s.splice j := by
  simp [State.setSplice, State.splice, aget_aset_ne h]

@[simp] theorem setSplice_frame (i : Nat) (v : Spl) :
    (s.setSplice i v).pending = s.pending ∧ (s.setSplice i v).now = s.now ∧
    (s.setSplice i v).freeCount = s.freeCount ∧ (s.setSplice i v).sent = s.sent ∧
    (s.setSplice i v).mem = s.mem ∧ (s.setSplice i v).wmem = s.wmem ∧ (s.setSplice i v).flash = s.flash ∧
    (s.setSplice i v).cores = s.cores ∧ (s.setSplice i v).hbmStacks = s.hbmStacks ∧
    (s.setSplice i v).ports = s.ports ∧ (s.setSplice i v).pages = s.pages ∧
    (s.setSplice i v).chipSlots = s.chipSlots ∧ (s.setSplice i v).hallSlots = s.hallSlots ∧
    (s.setSplice i v).fab = s.fab ∧ (s.setSplice i v).eth = s.eth ∧ (s.setSplice i v).evt = s.evt ∧
    (s.setSplice i v).slu = s.slu ∧ (s.setSplice i v).gov = s.gov ∧ (s.setSplice i v).sec = s.sec ∧
    (s.setSplice i v).module = s.module ∧ (s.setSplice i v).pres = s.pres ∧ (s.setSplice i v).held = s.held ∧
    (s.setSplice i v).parked = s.parked ∧ (s.setSplice i v).knotIn = s.knotIn ∧ (s.setSplice i v).images = s.images ∧
    (s.setSplice i v).answers = s.answers ∧ (s.setSplice i v).bankFinds = s.bankFinds ∧
    (s.setSplice i v).resv = s.resv ∧ (s.setSplice i v).mons = s.mons ∧ (s.setSplice i v).waits = s.waits ∧
    (s.setSplice i v).core = s.core ∧ (s.setSplice i v).stack = s.stack ∧ (s.setSplice i v).port = s.port ∧
    (s.setSplice i v).page = s.page ∧ (s.setSplice i v).polder = s.polder ∧
    (s.setSplice i v).chipSlot = s.chipSlot ∧ (s.setSplice i v).hallSlot = s.hallSlot ∧
    (s.setSplice i v).qp = s.qp :=
  ⟨rfl, rfl, rfl, rfl, rfl, rfl, rfl, rfl, rfl, rfl, rfl, rfl, rfl, rfl, rfl, rfl, rfl, rfl, rfl, rfl, rfl,
rfl, rfl, rfl, rfl, rfl, rfl, rfl, rfl, rfl, rfl, rfl, rfl, rfl, rfl, rfl, rfl, rfl⟩

@[simp] theorem setPort_self (i : Nat) (v : FPort) : (s.setPort i v).port i = v := by
  simp [State.setPort, State.port]

theorem setPort_other {i j : Nat} (h : j ≠ i) (v : FPort) : (s.setPort i v).port j = s.port j := by
  simp [State.setPort, State.port, aget_aset_ne h]

@[simp] theorem setPort_frame (i : Nat) (v : FPort) :
    (s.setPort i v).pending = s.pending ∧ (s.setPort i v).now = s.now ∧
    (s.setPort i v).freeCount = s.freeCount ∧ (s.setPort i v).sent = s.sent ∧ (s.setPort i v).mem = s.mem ∧
    (s.setPort i v).wmem = s.wmem ∧ (s.setPort i v).flash = s.flash ∧ (s.setPort i v).cores = s.cores ∧
    (s.setPort i v).hbmStacks = s.hbmStacks ∧ (s.setPort i v).spl = s.spl ∧ (s.setPort i v).pages = s.pages ∧
    (s.setPort i v).chipSlots = s.chipSlots ∧ (s.setPort i v).hallSlots = s.hallSlots ∧
    (s.setPort i v).fab = s.fab ∧ (s.setPort i v).eth = s.eth ∧ (s.setPort i v).evt = s.evt ∧
    (s.setPort i v).slu = s.slu ∧ (s.setPort i v).gov = s.gov ∧ (s.setPort i v).sec = s.sec ∧
    (s.setPort i v).module = s.module ∧ (s.setPort i v).pres = s.pres ∧ (s.setPort i v).held = s.held ∧
    (s.setPort i v).parked = s.parked ∧ (s.setPort i v).knotIn = s.knotIn ∧ (s.setPort i v).images = s.images ∧
    (s.setPort i v).answers = s.answers ∧ (s.setPort i v).bankFinds = s.bankFinds ∧
    (s.setPort i v).resv = s.resv ∧ (s.setPort i v).mons = s.mons ∧ (s.setPort i v).waits = s.waits ∧
    (s.setPort i v).core = s.core ∧ (s.setPort i v).stack = s.stack ∧ (s.setPort i v).splice = s.splice ∧
    (s.setPort i v).page = s.page ∧ (s.setPort i v).polder = s.polder ∧ (s.setPort i v).chipSlot = s.chipSlot ∧
    (s.setPort i v).hallSlot = s.hallSlot ∧ (s.setPort i v).qp = s.qp :=
  ⟨rfl, rfl, rfl, rfl, rfl, rfl, rfl, rfl, rfl, rfl, rfl, rfl, rfl, rfl, rfl, rfl, rfl, rfl, rfl, rfl, rfl,
rfl, rfl, rfl, rfl, rfl, rfl, rfl, rfl, rfl, rfl, rfl, rfl, rfl, rfl, rfl, rfl, rfl⟩

@[simp] theorem setPage_self (i : PageId) (v : Page) : (s.setPage i v).page i = v := by
  simp [State.setPage, State.page]

theorem setPage_other {i j : PageId} (h : j ≠ i) (v : Page) : (s.setPage i v).page j = s.page j := by
  simp [State.setPage, State.page, aget_aset_ne h]

@[simp] theorem setPage_frame (i : PageId) (v : Page) :
    (s.setPage i v).pending = s.pending ∧ (s.setPage i v).now = s.now ∧
    (s.setPage i v).freeCount = s.freeCount ∧ (s.setPage i v).sent = s.sent ∧ (s.setPage i v).mem = s.mem ∧
    (s.setPage i v).wmem = s.wmem ∧ (s.setPage i v).flash = s.flash ∧ (s.setPage i v).cores = s.cores ∧
    (s.setPage i v).hbmStacks = s.hbmStacks ∧ (s.setPage i v).spl = s.spl ∧ (s.setPage i v).ports = s.ports ∧
    (s.setPage i v).chipSlots = s.chipSlots ∧ (s.setPage i v).hallSlots = s.hallSlots ∧
    (s.setPage i v).fab = s.fab ∧ (s.setPage i v).eth = s.eth ∧ (s.setPage i v).evt = s.evt ∧
    (s.setPage i v).slu = s.slu ∧ (s.setPage i v).gov = s.gov ∧ (s.setPage i v).sec = s.sec ∧
    (s.setPage i v).module = s.module ∧ (s.setPage i v).pres = s.pres ∧ (s.setPage i v).held = s.held ∧
    (s.setPage i v).parked = s.parked ∧ (s.setPage i v).knotIn = s.knotIn ∧ (s.setPage i v).images = s.images ∧
    (s.setPage i v).answers = s.answers ∧ (s.setPage i v).bankFinds = s.bankFinds ∧
    (s.setPage i v).resv = s.resv ∧ (s.setPage i v).mons = s.mons ∧ (s.setPage i v).waits = s.waits ∧
    (s.setPage i v).core = s.core ∧ (s.setPage i v).stack = s.stack ∧ (s.setPage i v).splice = s.splice ∧
    (s.setPage i v).port = s.port ∧ (s.setPage i v).polder = s.polder ∧ (s.setPage i v).chipSlot = s.chipSlot ∧
    (s.setPage i v).hallSlot = s.hallSlot ∧ (s.setPage i v).qp = s.qp :=
  ⟨rfl, rfl, rfl, rfl, rfl, rfl, rfl, rfl, rfl, rfl, rfl, rfl, rfl, rfl, rfl, rfl, rfl, rfl, rfl, rfl, rfl,
rfl, rfl, rfl, rfl, rfl, rfl, rfl, rfl, rfl, rfl, rfl, rfl, rfl, rfl, rfl, rfl, rfl⟩

@[simp] theorem setPolder_self (i : Nat) (v : Polder) : (s.setPolder i v).polder i = v := by
  simp [State.setPolder, State.polder]

theorem setPolder_other {i j : Nat} (h : j ≠ i) (v : Polder) : (s.setPolder i v).polder j = s.polder j := by
  simp [State.setPolder, State.polder, aget_aset_ne h]

@[simp] theorem setPolder_frame (i : Nat) (v : Polder) :
    (s.setPolder i v).pending = s.pending ∧ (s.setPolder i v).now = s.now ∧
    (s.setPolder i v).freeCount = s.freeCount ∧ (s.setPolder i v).sent = s.sent ∧
    (s.setPolder i v).mem = s.mem ∧ (s.setPolder i v).wmem = s.wmem ∧ (s.setPolder i v).flash = s.flash ∧
    (s.setPolder i v).cores = s.cores ∧ (s.setPolder i v).hbmStacks = s.hbmStacks ∧
    (s.setPolder i v).spl = s.spl ∧ (s.setPolder i v).ports = s.ports ∧ (s.setPolder i v).pages = s.pages ∧
    (s.setPolder i v).chipSlots = s.chipSlots ∧ (s.setPolder i v).hallSlots = s.hallSlots ∧
    (s.setPolder i v).fab = s.fab ∧ (s.setPolder i v).eth = s.eth ∧ (s.setPolder i v).evt = s.evt ∧
    (s.setPolder i v).gov = s.gov ∧ (s.setPolder i v).sec = s.sec ∧ (s.setPolder i v).module = s.module ∧
    (s.setPolder i v).pres = s.pres ∧ (s.setPolder i v).held = s.held ∧
    (s.setPolder i v).parked = s.parked ∧ (s.setPolder i v).knotIn = s.knotIn ∧ (s.setPolder i v).images = s.images ∧ (s.setPolder i v).answers = s.answers ∧
    (s.setPolder i v).bankFinds = s.bankFinds ∧ (s.setPolder i v).resv = s.resv ∧
    (s.setPolder i v).mons = s.mons ∧ (s.setPolder i v).waits = s.waits ∧ (s.setPolder i v).core = s.core ∧
    (s.setPolder i v).stack = s.stack ∧ (s.setPolder i v).splice = s.splice ∧ (s.setPolder i v).port = s.port ∧
    (s.setPolder i v).page = s.page ∧ (s.setPolder i v).chipSlot = s.chipSlot ∧
    (s.setPolder i v).hallSlot = s.hallSlot ∧ (s.setPolder i v).qp = s.qp :=
  ⟨rfl, rfl, rfl, rfl, rfl, rfl, rfl, rfl, rfl, rfl, rfl, rfl, rfl, rfl, rfl, rfl, rfl, rfl, rfl, rfl, rfl,
rfl, rfl, rfl, rfl, rfl, rfl, rfl, rfl, rfl, rfl, rfl, rfl, rfl, rfl, rfl, rfl, rfl⟩

@[simp] theorem setChipSlot_self (i : Nat) (v : ChipSlot) : (s.setChipSlot i v).chipSlot i = v := by
  simp [State.setChipSlot, State.chipSlot]

theorem setChipSlot_other {i j : Nat} (h : j ≠ i) (v : ChipSlot) : (s.setChipSlot i v).chipSlot j = s.chipSlot j := by
  simp [State.setChipSlot, State.chipSlot, aget_aset_ne h]

@[simp] theorem setChipSlot_frame (i : Nat) (v : ChipSlot) :
    (s.setChipSlot i v).pending = s.pending ∧ (s.setChipSlot i v).now = s.now ∧
    (s.setChipSlot i v).freeCount = s.freeCount ∧ (s.setChipSlot i v).sent = s.sent ∧
    (s.setChipSlot i v).mem = s.mem ∧ (s.setChipSlot i v).wmem = s.wmem ∧ (s.setChipSlot i v).flash = s.flash ∧
    (s.setChipSlot i v).cores = s.cores ∧ (s.setChipSlot i v).hbmStacks = s.hbmStacks ∧
    (s.setChipSlot i v).spl = s.spl ∧ (s.setChipSlot i v).ports = s.ports ∧
    (s.setChipSlot i v).pages = s.pages ∧ (s.setChipSlot i v).hallSlots = s.hallSlots ∧
    (s.setChipSlot i v).fab = s.fab ∧ (s.setChipSlot i v).eth = s.eth ∧ (s.setChipSlot i v).evt = s.evt ∧
    (s.setChipSlot i v).slu = s.slu ∧ (s.setChipSlot i v).gov = s.gov ∧ (s.setChipSlot i v).sec = s.sec ∧
    (s.setChipSlot i v).module = s.module ∧ (s.setChipSlot i v).pres = s.pres ∧
    (s.setChipSlot i v).held = s.held ∧
    (s.setChipSlot i v).parked = s.parked ∧ (s.setChipSlot i v).knotIn = s.knotIn ∧ (s.setChipSlot i v).images = s.images ∧ (s.setChipSlot i v).answers = s.answers ∧
    (s.setChipSlot i v).bankFinds = s.bankFinds ∧ (s.setChipSlot i v).resv = s.resv ∧
    (s.setChipSlot i v).mons = s.mons ∧ (s.setChipSlot i v).waits = s.waits ∧
    (s.setChipSlot i v).core = s.core ∧ (s.setChipSlot i v).stack = s.stack ∧
    (s.setChipSlot i v).splice = s.splice ∧ (s.setChipSlot i v).port = s.port ∧
    (s.setChipSlot i v).page = s.page ∧ (s.setChipSlot i v).polder = s.polder ∧
    (s.setChipSlot i v).hallSlot = s.hallSlot ∧ (s.setChipSlot i v).qp = s.qp :=
  ⟨rfl, rfl, rfl, rfl, rfl, rfl, rfl, rfl, rfl, rfl, rfl, rfl, rfl, rfl, rfl, rfl, rfl, rfl, rfl, rfl, rfl,
rfl, rfl, rfl, rfl, rfl, rfl, rfl, rfl, rfl, rfl, rfl, rfl, rfl, rfl, rfl, rfl, rfl⟩

@[simp] theorem setHallSlot_self (i : Nat) (v : HallSlot) : (s.setHallSlot i v).hallSlot i = v := by
  simp [State.setHallSlot, State.hallSlot]

theorem setHallSlot_other {i j : Nat} (h : j ≠ i) (v : HallSlot) : (s.setHallSlot i v).hallSlot j = s.hallSlot j := by
  simp [State.setHallSlot, State.hallSlot, aget_aset_ne h]

@[simp] theorem setHallSlot_frame (i : Nat) (v : HallSlot) :
    (s.setHallSlot i v).pending = s.pending ∧ (s.setHallSlot i v).now = s.now ∧
    (s.setHallSlot i v).freeCount = s.freeCount ∧ (s.setHallSlot i v).sent = s.sent ∧
    (s.setHallSlot i v).mem = s.mem ∧ (s.setHallSlot i v).wmem = s.wmem ∧ (s.setHallSlot i v).flash = s.flash ∧
    (s.setHallSlot i v).cores = s.cores ∧ (s.setHallSlot i v).hbmStacks = s.hbmStacks ∧
    (s.setHallSlot i v).spl = s.spl ∧ (s.setHallSlot i v).ports = s.ports ∧
    (s.setHallSlot i v).pages = s.pages ∧ (s.setHallSlot i v).chipSlots = s.chipSlots ∧
    (s.setHallSlot i v).fab = s.fab ∧ (s.setHallSlot i v).eth = s.eth ∧ (s.setHallSlot i v).evt = s.evt ∧
    (s.setHallSlot i v).slu = s.slu ∧ (s.setHallSlot i v).gov = s.gov ∧ (s.setHallSlot i v).sec = s.sec ∧
    (s.setHallSlot i v).module = s.module ∧ (s.setHallSlot i v).pres = s.pres ∧
    (s.setHallSlot i v).held = s.held ∧
    (s.setHallSlot i v).parked = s.parked ∧ (s.setHallSlot i v).knotIn = s.knotIn ∧ (s.setHallSlot i v).images = s.images ∧ (s.setHallSlot i v).answers = s.answers ∧
    (s.setHallSlot i v).bankFinds = s.bankFinds ∧ (s.setHallSlot i v).resv = s.resv ∧
    (s.setHallSlot i v).mons = s.mons ∧ (s.setHallSlot i v).waits = s.waits ∧
    (s.setHallSlot i v).core = s.core ∧ (s.setHallSlot i v).stack = s.stack ∧
    (s.setHallSlot i v).splice = s.splice ∧ (s.setHallSlot i v).port = s.port ∧
    (s.setHallSlot i v).page = s.page ∧ (s.setHallSlot i v).polder = s.polder ∧
    (s.setHallSlot i v).chipSlot = s.chipSlot ∧ (s.setHallSlot i v).qp = s.qp :=
  ⟨rfl, rfl, rfl, rfl, rfl, rfl, rfl, rfl, rfl, rfl, rfl, rfl, rfl, rfl, rfl, rfl, rfl, rfl, rfl, rfl, rfl,
rfl, rfl, rfl, rfl, rfl, rfl, rfl, rfl, rfl, rfl, rfl, rfl, rfl, rfl, rfl, rfl, rfl⟩

@[simp] theorem setQp_self (i : Nat) (v : Qp) : (s.setQp i v).qp i = v := by
  simp [State.setQp, State.qp]

theorem setQp_other {i j : Nat} (h : j ≠ i) (v : Qp) : (s.setQp i v).qp j = s.qp j := by
  simp [State.setQp, State.qp, aget_aset_ne h]

@[simp] theorem setQp_frame (i : Nat) (v : Qp) :
    (s.setQp i v).pending = s.pending ∧ (s.setQp i v).now = s.now ∧ (s.setQp i v).freeCount = s.freeCount ∧
    (s.setQp i v).sent = s.sent ∧ (s.setQp i v).mem = s.mem ∧ (s.setQp i v).wmem = s.wmem ∧
    (s.setQp i v).flash = s.flash ∧ (s.setQp i v).cores = s.cores ∧ (s.setQp i v).hbmStacks = s.hbmStacks ∧
    (s.setQp i v).spl = s.spl ∧ (s.setQp i v).ports = s.ports ∧ (s.setQp i v).pages = s.pages ∧
    (s.setQp i v).chipSlots = s.chipSlots ∧ (s.setQp i v).hallSlots = s.hallSlots ∧ (s.setQp i v).fab = s.fab ∧
    (s.setQp i v).evt = s.evt ∧ (s.setQp i v).slu = s.slu ∧ (s.setQp i v).gov = s.gov ∧
    (s.setQp i v).sec = s.sec ∧ (s.setQp i v).module = s.module ∧ (s.setQp i v).pres = s.pres ∧
    (s.setQp i v).held = s.held ∧
    (s.setQp i v).parked = s.parked ∧ (s.setQp i v).knotIn = s.knotIn ∧ (s.setQp i v).images = s.images ∧ (s.setQp i v).answers = s.answers ∧ (s.setQp i v).bankFinds = s.bankFinds ∧
    (s.setQp i v).resv = s.resv ∧ (s.setQp i v).mons = s.mons ∧ (s.setQp i v).waits = s.waits ∧
    (s.setQp i v).core = s.core ∧ (s.setQp i v).stack = s.stack ∧ (s.setQp i v).splice = s.splice ∧
    (s.setQp i v).port = s.port ∧ (s.setQp i v).page = s.page ∧ (s.setQp i v).polder = s.polder ∧
    (s.setQp i v).chipSlot = s.chipSlot ∧ (s.setQp i v).hallSlot = s.hallSlot :=
  ⟨rfl, rfl, rfl, rfl, rfl, rfl, rfl, rfl, rfl, rfl, rfl, rfl, rfl, rfl, rfl, rfl, rfl, rfl, rfl, rfl, rfl,
rfl, rfl, rfl, rfl, rfl, rfl, rfl, rfl, rfl, rfl, rfl, rfl, rfl, rfl, rfl, rfl, rfl⟩

/-! ## Messages, events, answers, register values -/

@[simp] theorem emit_frame (m : Msg) :
    (s.emit m).pending = s.pending ∧ (s.emit m).now = s.now ∧ (s.emit m).freeCount = s.freeCount ∧
    (s.emit m).mem = s.mem ∧ (s.emit m).wmem = s.wmem ∧ (s.emit m).flash = s.flash ∧
    (s.emit m).cores = s.cores ∧ (s.emit m).hbmStacks = s.hbmStacks ∧ (s.emit m).spl = s.spl ∧
    (s.emit m).ports = s.ports ∧ (s.emit m).pages = s.pages ∧ (s.emit m).chipSlots = s.chipSlots ∧
    (s.emit m).hallSlots = s.hallSlots ∧ (s.emit m).fab = s.fab ∧ (s.emit m).eth = s.eth ∧
    (s.emit m).evt = s.evt ∧ (s.emit m).slu = s.slu ∧ (s.emit m).gov = s.gov ∧ (s.emit m).sec = s.sec ∧
    (s.emit m).module = s.module ∧ (s.emit m).pres = s.pres ∧ (s.emit m).held = s.held ∧
    (s.emit m).parked = s.parked ∧ (s.emit m).knotIn = s.knotIn ∧ (s.emit m).images = s.images ∧
    (s.emit m).answers = s.answers ∧ (s.emit m).bankFinds = s.bankFinds ∧ (s.emit m).resv = s.resv ∧
    (s.emit m).mons = s.mons ∧ (s.emit m).waits = s.waits ∧ (s.emit m).core = s.core ∧
    (s.emit m).stack = s.stack ∧ (s.emit m).splice = s.splice ∧ (s.emit m).port = s.port ∧
    (s.emit m).page = s.page ∧ (s.emit m).polder = s.polder ∧ (s.emit m).chipSlot = s.chipSlot ∧
    (s.emit m).hallSlot = s.hallSlot ∧ (s.emit m).qp = s.qp :=
  ⟨rfl, rfl, rfl, rfl, rfl, rfl, rfl, rfl, rfl, rfl, rfl, rfl, rfl, rfl, rfl, rfl, rfl, rfl, rfl, rfl, rfl,
rfl, rfl, rfl, rfl, rfl, rfl, rfl, rfl, rfl, rfl, rfl, rfl, rfl, rfl, rfl, rfl, rfl, rfl⟩

@[simp] theorem answer_frame (q : Req) (r : Resp) :
    (answer q r s).pending = s.pending ∧ (answer q r s).now = s.now ∧ (answer q r s).freeCount = s.freeCount ∧
    (answer q r s).sent = s.sent ∧ (answer q r s).mem = s.mem ∧ (answer q r s).wmem = s.wmem ∧
    (answer q r s).flash = s.flash ∧ (answer q r s).cores = s.cores ∧ (answer q r s).hbmStacks = s.hbmStacks ∧
    (answer q r s).spl = s.spl ∧ (answer q r s).ports = s.ports ∧ (answer q r s).pages = s.pages ∧
    (answer q r s).chipSlots = s.chipSlots ∧ (answer q r s).hallSlots = s.hallSlots ∧
    (answer q r s).fab = s.fab ∧ (answer q r s).eth = s.eth ∧ (answer q r s).evt = s.evt ∧
    (answer q r s).slu = s.slu ∧ (answer q r s).gov = s.gov ∧ (answer q r s).sec = s.sec ∧
    (answer q r s).module = s.module ∧ (answer q r s).pres = s.pres ∧ (answer q r s).held = s.held ∧
    (answer q r s).parked = s.parked ∧ (answer q r s).knotIn = s.knotIn ∧ (answer q r s).images = s.images ∧
    (answer q r s).bankFinds = s.bankFinds ∧ (answer q r s).resv = s.resv ∧ (answer q r s).mons = s.mons ∧
    (answer q r s).waits = s.waits ∧ (answer q r s).core = s.core ∧ (answer q r s).stack = s.stack ∧
    (answer q r s).splice = s.splice ∧ (answer q r s).port = s.port ∧ (answer q r s).page = s.page ∧
    (answer q r s).polder = s.polder ∧ (answer q r s).chipSlot = s.chipSlot ∧
    (answer q r s).hallSlot = s.hallSlot ∧ (answer q r s).qp = s.qp :=
  ⟨rfl, rfl, rfl, rfl, rfl, rfl, rfl, rfl, rfl, rfl, rfl, rfl, rfl, rfl, rfl, rfl, rfl, rfl, rfl, rfl, rfl,
rfl, rfl, rfl, rfl, rfl, rfl, rfl, rfl, rfl, rfl, rfl, rfl, rfl, rfl, rfl, rfl, rfl, rfl⟩

@[simp] theorem emit_sent (m : Msg) : (s.emit m).sent = m :: s.sent := rfl

@[simp] theorem answer_answers (q : Req) (r : Resp) : (answer q r s).answers = s.answers ++ [(q, r)] := rfl

/-- Raising an event changes the collector alone (R461). -/
@[simp] theorem raiseEv_frame (p : PageId) (code d : Nat) :
    (raiseEv p code d s).pending = s.pending ∧ (raiseEv p code d s).now = s.now ∧
    (raiseEv p code d s).freeCount = s.freeCount ∧ (raiseEv p code d s).sent = s.sent ∧
    (raiseEv p code d s).mem = s.mem ∧ (raiseEv p code d s).wmem = s.wmem ∧
    (raiseEv p code d s).flash = s.flash ∧ (raiseEv p code d s).cores = s.cores ∧
    (raiseEv p code d s).hbmStacks = s.hbmStacks ∧ (raiseEv p code d s).spl = s.spl ∧
    (raiseEv p code d s).ports = s.ports ∧ (raiseEv p code d s).pages = s.pages ∧
    (raiseEv p code d s).chipSlots = s.chipSlots ∧ (raiseEv p code d s).hallSlots = s.hallSlots ∧
    (raiseEv p code d s).fab = s.fab ∧ (raiseEv p code d s).eth = s.eth ∧ (raiseEv p code d s).slu = s.slu ∧
    (raiseEv p code d s).gov = s.gov ∧ (raiseEv p code d s).sec = s.sec ∧
    (raiseEv p code d s).module = s.module ∧ (raiseEv p code d s).pres = s.pres ∧
    (raiseEv p code d s).held = s.held ∧
    (raiseEv p code d s).parked = s.parked ∧ (raiseEv p code d s).knotIn = s.knotIn ∧ (raiseEv p code d s).images = s.images ∧ (raiseEv p code d s).answers = s.answers ∧
    (raiseEv p code d s).bankFinds = s.bankFinds ∧ (raiseEv p code d s).resv = s.resv ∧
    (raiseEv p code d s).mons = s.mons ∧ (raiseEv p code d s).waits = s.waits ∧
    (raiseEv p code d s).core = s.core ∧ (raiseEv p code d s).stack = s.stack ∧
    (raiseEv p code d s).splice = s.splice ∧ (raiseEv p code d s).port = s.port ∧
    (raiseEv p code d s).page = s.page ∧ (raiseEv p code d s).polder = s.polder ∧
    (raiseEv p code d s).chipSlot = s.chipSlot ∧ (raiseEv p code d s).hallSlot = s.hallSlot ∧
    (raiseEv p code d s).qp = s.qp := by
  unfold raiseEv; dsimp only; split <;> exact ⟨rfl, rfl, rfl, rfl, rfl, rfl, rfl, rfl, rfl, rfl, rfl, rfl, rfl, rfl, rfl, rfl, rfl, rfl, rfl, rfl, rfl, rfl, rfl, rfl, rfl, rfl, rfl, rfl, rfl, rfl, rfl, rfl, rfl, rfl, rfl, rfl, rfl, rfl, rfl⟩

/-- Raising an event is a change of the collector (R461). -/
theorem raiseEv_eq (p : PageId) (code d : Nat) : ∃ e, raiseEv p code d s = { s with evt := e } := by
  unfold raiseEv; dsimp only; split <;> exact ⟨_, rfl⟩

/-- A raise joins the input of its page, which has room (R461). -/
theorem raiseEv_evt (p : PageId) (code d : Nat) (h : (nth [] s.evt.inputs (collectorInput p)).length < 256) :
    (raiseEv p code d s).evt = { s.evt with
      inputs := put s.evt.inputs (collectorInput p)
        (nth [] s.evt.inputs (collectorInput p) ++ [⟨p, code, s.now, d⟩]) } := by
  have h' : ¬ (nth [] s.evt.inputs (collectorInput p)).length ≥ 256 := by omega
  simp [raiseEv, h']

@[simp] theorem setStw_core (c : Nat) (v : Steward) : (s.setStw c v).core c = { s.core c with stw := v } := by
  simp [State.setStw]

@[simp] theorem setStw_frame (c : Nat) (v : Steward) :
    (s.setStw c v).pending = s.pending ∧ (s.setStw c v).now = s.now ∧ (s.setStw c v).freeCount = s.freeCount ∧
    (s.setStw c v).sent = s.sent ∧ (s.setStw c v).mem = s.mem ∧ (s.setStw c v).wmem = s.wmem ∧
    (s.setStw c v).flash = s.flash ∧ (s.setStw c v).hbmStacks = s.hbmStacks ∧ (s.setStw c v).spl = s.spl ∧
    (s.setStw c v).ports = s.ports ∧ (s.setStw c v).pages = s.pages ∧ (s.setStw c v).chipSlots = s.chipSlots ∧
    (s.setStw c v).hallSlots = s.hallSlots ∧ (s.setStw c v).fab = s.fab ∧ (s.setStw c v).eth = s.eth ∧
    (s.setStw c v).evt = s.evt ∧ (s.setStw c v).slu = s.slu ∧ (s.setStw c v).gov = s.gov ∧
    (s.setStw c v).sec = s.sec ∧ (s.setStw c v).module = s.module ∧ (s.setStw c v).pres = s.pres ∧
    (s.setStw c v).held = s.held ∧
    (s.setStw c v).parked = s.parked ∧ (s.setStw c v).knotIn = s.knotIn ∧ (s.setStw c v).images = s.images ∧ (s.setStw c v).answers = s.answers ∧
    (s.setStw c v).bankFinds = s.bankFinds ∧ (s.setStw c v).resv = s.resv ∧ (s.setStw c v).mons = s.mons ∧
    (s.setStw c v).waits = s.waits ∧ (s.setStw c v).stack = s.stack ∧ (s.setStw c v).splice = s.splice ∧
    (s.setStw c v).port = s.port ∧ (s.setStw c v).page = s.page ∧ (s.setStw c v).polder = s.polder ∧
    (s.setStw c v).chipSlot = s.chipSlot ∧ (s.setStw c v).hallSlot = s.hallSlot ∧ (s.setStw c v).qp = s.qp := by
  exact setCore_frame s c _
@[simp] theorem setReg_frame (p : PageId) (off v : Nat) :
    (s.setReg p off v).pending = s.pending ∧ (s.setReg p off v).now = s.now ∧
    (s.setReg p off v).freeCount = s.freeCount ∧ (s.setReg p off v).sent = s.sent ∧
    (s.setReg p off v).mem = s.mem ∧ (s.setReg p off v).wmem = s.wmem ∧ (s.setReg p off v).flash = s.flash ∧
    (s.setReg p off v).cores = s.cores ∧ (s.setReg p off v).hbmStacks = s.hbmStacks ∧
    (s.setReg p off v).spl = s.spl ∧ (s.setReg p off v).ports = s.ports ∧
    (s.setReg p off v).chipSlots = s.chipSlots ∧ (s.setReg p off v).hallSlots = s.hallSlots ∧
    (s.setReg p off v).fab = s.fab ∧ (s.setReg p off v).eth = s.eth ∧ (s.setReg p off v).evt = s.evt ∧
    (s.setReg p off v).slu = s.slu ∧ (s.setReg p off v).gov = s.gov ∧ (s.setReg p off v).sec = s.sec ∧
    (s.setReg p off v).module = s.module ∧ (s.setReg p off v).pres = s.pres ∧
    (s.setReg p off v).held = s.held ∧
    (s.setReg p off v).parked = s.parked ∧ (s.setReg p off v).knotIn = s.knotIn ∧ (s.setReg p off v).images = s.images ∧ (s.setReg p off v).answers = s.answers ∧
    (s.setReg p off v).bankFinds = s.bankFinds ∧ (s.setReg p off v).resv = s.resv ∧
    (s.setReg p off v).mons = s.mons ∧ (s.setReg p off v).waits = s.waits ∧ (s.setReg p off v).core = s.core ∧
    (s.setReg p off v).stack = s.stack ∧ (s.setReg p off v).splice = s.splice ∧
    (s.setReg p off v).port = s.port ∧ (s.setReg p off v).polder = s.polder ∧
    (s.setReg p off v).chipSlot = s.chipSlot ∧ (s.setReg p off v).hallSlot = s.hallSlot ∧
    (s.setReg p off v).qp = s.qp := by
  exact setPage_frame s p _

end Sys2Proof.Machine
end

