-- ==== Sys2Proof/Laws/Finish.lean ====
section
/-! SUPPORT. What the end of a command can do: in a settled state nothing but the sluice's note of quiescence. -/

namespace Sys2Proof.Machine

/-! ## Folds over commands -/

/-- A fold of identities is the identity. -/
theorem each_id {α : Type} {l : List α} {f : α → State → State} {s : State} (h : ∀ a ∈ l, f a s = s) :
    each l f s = s := by
  induction l with
  | nil => rfl
  | cons a r ih =>
    have ha := h a (by simp)
    simp only [each, List.foldl_cons, ha] at ih ⊢
    exact ih fun b hb => h b (List.mem_cons_of_mem _ hb)

/-- A property that every element's effect keeps is kept by all of them in turn. -/
theorem each_keeps {α : Type} {l : List α} {f : α → State → State} {P : State → Prop}
    (h : ∀ a ∈ l, ∀ s, P s → P (f a s)) {s : State} (hs : P s) : P (each l f s) := by
  induction l generalizing s with
  | nil => exact hs
  | cons a r ih =>
    exact ih (fun b hb => h b (List.mem_cons_of_mem _ hb)) (h a (by simp) s hs)

/-! ## The note of quiescence -/

/-- States that differ in the polders' quiescence and wake events alone. -/
def noted (s t : State) : Prop :=
  (∃ l, t = { s with slu := { s.slu with polders := l } })
    ∧ ∀ p, (t.polder p).state = (s.polder p).state ∧ (t.polder p).wakes = (s.polder p).wakes
      ∧ (t.polder p).granted = (s.polder p).granted ∧ (t.polder p).leads = (s.polder p).leads
      ∧ (t.polder p).knots = (s.polder p).knots ∧ (t.polder p).drainAsked = (s.polder p).drainAsked
      ∧ ∀ x, (s.polder p).wake = some x → (t.polder p).wake = some x

theorem noted_refl (s : State) : noted s s :=
  ⟨⟨s.slu.polders, rfl⟩, fun _ => ⟨rfl, rfl, rfl, rfl, rfl, rfl, fun _ h => h⟩⟩

theorem noted_trans {s t u : State} (h : noted s t) (k : noted t u) : noted s u := by
  obtain ⟨⟨l, rfl⟩, h⟩ := h
  obtain ⟨⟨m, rfl⟩, k⟩ := k
  refine ⟨⟨m, rfl⟩, fun p => ?_⟩
  obtain ⟨a1, a2, a3, a4, a5, a6, a7⟩ := h p
  obtain ⟨b1, b2, b3, b4, b5, b6, b7⟩ := k p
  exact ⟨b1.trans a1, b2.trans a2, b3.trans a3, b4.trans a4, b5.trans a5, b6.trans a6, fun x hx => b7 x (a7 x hx)⟩

theorem noted_setPolder {s : State} (p : Nat) (v : Polder) (h1 : v.state = (s.polder p).state)
    (h2 : v.wakes = (s.polder p).wakes) (h3 : v.granted = (s.polder p).granted)
    (h4 : v.leads = (s.polder p).leads) (h5 : v.knots = (s.polder p).knots)
    (h6 : v.drainAsked = (s.polder p).drainAsked) (h7 : ∀ x, (s.polder p).wake = some x → v.wake = some x) :
    noted s (s.setPolder p v) := by
  refine ⟨⟨_, rfl⟩, fun q => ?_⟩
  by_cases h : q = p
  · subst h; rw [setPolder_self]; exact ⟨h1, h2, h3, h4, h5, h6, h7⟩
  · simp [setPolder_other s h]

theorem noted_markWake (p cause : Nat) (s : State) : noted s (markWake p cause s) := by
  unfold markWake
  dsimp only
  split
  · rename_i h
    exact noted_setPolder p _ rfl rfl rfl rfl rfl rfl fun x hx => by simp [hx] at h
  · exact noted_refl s

theorem noted_noteBusy (s t : State) : noted t (noteBusy s t) := by
  unfold noteBusy
  dsimp only
  refine each_keeps (P := noted t) (fun p _ u hu => ?_) (noted_refl t)
  have h := noted_setPolder (s := u) p { u.polder p with busyAt := u.now } rfl rfl rfl rfl rfl rfl
    fun _ h => h
  split
  · exact noted_trans hu (noted_trans h (noted_markWake _ _ _))
  · exact noted_trans hu h

/-! ## Reading the state after a command -/

/-- The state after a command, but for the polders, is that of its effect. -/
theorem after_eq (s t : State) :
    ∃ l, s.after t = { t with slu := { t.slu with polders := l }, now := s.now, pending := s.pending } := by
  obtain ⟨⟨l, h⟩, -⟩ := noted_noteBusy s t
  exact ⟨l, by simp [State.after, h]⟩

@[simp] theorem after_frame (s t : State) :
    (s.after t).now = s.now ∧ (s.after t).pending = s.pending ∧ (s.after t).slu.wakeLast = t.slu.wakeLast ∧
    (s.after t).slu.resets = t.slu.resets ∧ (s.after t).freeCount = t.freeCount ∧ (s.after t).sent = t.sent ∧
    (s.after t).mem = t.mem ∧ (s.after t).wmem = t.wmem ∧ (s.after t).flash = t.flash ∧
    (s.after t).cores = t.cores ∧ (s.after t).hbmStacks = t.hbmStacks ∧ (s.after t).spl = t.spl ∧
    (s.after t).ports = t.ports ∧ (s.after t).pages = t.pages ∧ (s.after t).chipSlots = t.chipSlots ∧
    (s.after t).hallSlots = t.hallSlots ∧ (s.after t).fab = t.fab ∧ (s.after t).eth = t.eth ∧
    (s.after t).evt = t.evt ∧ (s.after t).gov = t.gov ∧ (s.after t).sec = t.sec ∧
    (s.after t).module = t.module ∧ (s.after t).pres = t.pres ∧ (s.after t).held = t.held ∧
    (s.after t).parked = t.parked ∧ (s.after t).knotIn = t.knotIn ∧ (s.after t).images = t.images ∧
    (s.after t).answers = t.answers ∧ (s.after t).bankFinds = t.bankFinds ∧ (s.after t).resv = t.resv ∧
    (s.after t).mons = t.mons ∧ (s.after t).waits = t.waits ∧ (s.after t).core = t.core ∧
    (s.after t).stack = t.stack ∧ (s.after t).splice = t.splice ∧ (s.after t).port = t.port ∧
    (s.after t).page = t.page ∧ (s.after t).chipSlot = t.chipSlot ∧ (s.after t).hallSlot = t.hallSlot ∧
    (s.after t).qp = t.qp := by
  obtain ⟨l, h⟩ := after_eq s t
  rw [h]
  exact ⟨rfl, rfl, rfl, rfl, rfl, rfl, rfl, rfl, rfl, rfl, rfl, rfl, rfl, rfl, rfl, rfl, rfl, rfl, rfl, rfl, rfl, rfl, rfl, rfl, rfl, rfl, rfl, rfl, rfl, rfl, rfl, rfl, rfl, rfl, rfl, rfl, rfl, rfl, rfl, rfl⟩

@[simp] theorem after_polder (s t : State) (p : Nat) :
    ((s.after t).polder p).state = (t.polder p).state ∧ ((s.after t).polder p).wakes = (t.polder p).wakes
      ∧ ((s.after t).polder p).granted = (t.polder p).granted ∧ ((s.after t).polder p).leads = (t.polder p).leads
      ∧ ((s.after t).polder p).knots = (t.polder p).knots
      ∧ ((s.after t).polder p).drainAsked = (t.polder p).drainAsked := by
  obtain ⟨-, k⟩ := noted_noteBusy s t
  obtain ⟨h1, h2, h3, h4, h5, h6, -⟩ := k p
  exact ⟨h1, h2, h3, h4, h5, h6⟩

/-- A wake event that stands is not replaced (R423). -/
theorem after_wake {s t : State} {p : Nat} {x : Nat × Nat} (h : (t.polder p).wake = some x) :
    ((s.after t).polder p).wake = some x := by
  obtain ⟨-, k⟩ := noted_noteBusy s t
  exact (k p).2.2.2.2.2.2 x h

/-! ## Settling -/

theorem openGates_settled {s : State} (h : s.held.all fun x => !gateOpen s x.gate) : openGates s = s := by
  have : ((s.held.map (·.gate)).eraseDups.filter (gateOpen s)) = [] := by
    simp only [List.filter_eq_nil_iff, List.mem_eraseDups, List.mem_map]
    rintro g ⟨x, hx, rfl⟩
    simpa using List.all_eq_true.1 h x hx
  simp [openGates, this, each]

theorem judge_settled {s : State} (h : s.hbmStacks.all fun x => x.2.due.isEmpty) : judge s = s := by
  have : s.hbmStacks.filter (fun r => !r.2.due.isEmpty) = [] := by
    simp only [List.filter_eq_nil_iff]
    intro x hx
    simpa using List.all_eq_true.1 h x hx
  simp [judge, this, each]

theorem unpark_settled {s : State} (h : s.parked.all fun a => s.dark a.1) : unpark s = s := by
  have h' : ∀ a ∈ s.parked, s.dark a.1 = true := List.all_eq_true.1 h
  have e1 : s.parked.filter (fun a => !s.dark a.1) = [] := by
    simp only [List.filter_eq_nil_iff]
    intro a ha; simp [h' a ha]
  have e2 : s.parked.filter (fun a => s.dark a.1) = s.parked := List.filter_eq_self.2 h'
  simp [unpark, e1, e2]

theorem retryImages_settled {s : State} (h : s.images = []) : retryImages s = s := by
  cases s; simp_all [retryImages, each]

theorem requestsOn_settled {s : State} (h : s.fab.gateway = []) (k : s.fab.repin = []) : requestsOn s = s := by
  simp [requestsOn, h, k, each]

theorem drainSplices_settled {s : State} (h : s.spl.all fun u => u.2.settled) : drainSplices s = s := by
  refine each_id fun u hu => each_id fun t ht => ?_
  split
  · rename_i t' e
    have : ((t'.waiting.isEmpty || t'.holds) && !(t'.abort && t'.state != 3)) = true := by
      unfold findTag State.splice aget at e
      cases e' : alookup u.1 s.spl with
      | none => rw [e'] at e; simp at e
      | some v =>
        rw [e'] at e
        have := List.all_eq_true.1 h _ (alookup_mem e')
        simp only [Spl.settled, Bool.and_eq_true] at this
        exact List.all_eq_true.1 this.1.1.1 _ (List.mem_of_find?_eq_some e)
    simp only [Bool.and_eq_true, Bool.not_eq_true'] at this
    rw [if_neg (by simp [this.2])]
    unfold drainTag
    rw [if_pos]
    simpa [or_comm] using this.1
  · rfl

theorem spliceOn_settled {s : State} {k : Nat} (h : (s.splice k).settled) : spliceOn k s = s := by
  simp only [Spl.settled, Bool.and_eq_true] at h
  obtain ⟨⟨⟨-, h1⟩, h2⟩, h3⟩ := h
  have e1 : sendOn k s = s := by
    unfold sendOn
    split
    · rfl
    · rename_i x e
      rw [e] at h1
      rw [if_pos (by simpa using h1)]
  have e2 : auxOn k s = s := by
    unfold auxOn
    split
    · rename_i x e
      rw [e] at h2
      split
      · rename_i g e'; simp [e'] at h2
      · rfl
    · rfl
  simp only [spliceOn, e1, e2]
  exact if_pos h3

theorem goOn_settled {s : State} (h : s.settled) : goOn s = s := by
  simp only [State.settled, Bool.and_eq_true, List.isEmpty_iff] at h
  obtain ⟨⟨⟨⟨⟨⟨⟨⟨-, h1⟩, p1⟩, p2⟩, p3⟩, g1, g2⟩, h2, h2'⟩, h3⟩, h4⟩ := h
  have h3 := List.all_eq_true.1 h3
  have e0 : requestsOn (retryImages (unpark (openGates (judge s)))) = s := by
    rw [judge_settled p3, openGates_settled h1, unpark_settled p1, retryImages_settled p2, requestsOn_settled g1 g2]
  have e2 : each s.eth.qps (fun x s => roceLoop x.1 (x.2.waiting.length + 1) s) s = s := by
    refine each_id fun x hx => ?_
    have : (s.qp x.1).waiting.isEmpty || (s.qp x.1).serving.isSome := by
      unfold State.qp aget
      cases e : alookup x.1 s.eth.qps with
      | none => rfl
      | some v => exact h3 _ (alookup_mem e)
    simp only [Bool.or_eq_true] at this
    simp only [roceLoop]
    rw [if_pos]
    simpa [or_comm] using this
  have e4 : each s.spl (fun r s => spliceOn r.1 s) s = s := by
    refine each_id fun u hu => spliceOn_settled ?_
    unfold State.splice aget
    cases e : alookup u.1 s.spl with
    | none => rfl
    | some v => exact List.all_eq_true.1 h4 _ (alookup_mem e)
  have e5 : (if s.eth.ingressB.isEmpty = true then s else tmpDrain (s.eth.ingressB.length + 1) s) = s := by
    by_cases e : s.eth.ingressB.isEmpty = true
    · exact if_pos e
    · rw [if_neg e]
      have hb : tmpBlocked s = true := by simpa [e] using h2'
      unfold tmpDrain
      split
      · rfl
      · exact if_pos hb
  unfold goOn
  simp only [e0, e2, h2, List.isEmpty_nil, if_true, e5, drainSplices_settled h4, e4]

theorem settled_answers {s : State} (h : s.settled) : s.answers = [] := by
  simp only [State.settled, Bool.and_eq_true] at h
  simpa using h.1.1.1.1.1.1.1.1

theorem settle_settled {s : State} (h : s.settled) (n : Nat) : settle n s = s := by
  cases n with
  | zero => rfl
  | succ n => simp [settle, settled_answers h, goOn_settled h]

/-- An answer that concerns nobody ends. -/
theorem settle_answered {s : State} (h : s.settled) {q : Req} (hq : q.cont = .none) (r : Resp) (n : Nat) :
    settle (n + 1) (answer q r s) = s := by
  have e : ({ (answer q r s) with answers := [] } : State) = s := by
    have := settled_answers h
    cases s; simp_all [answer]
  have a : (answer q r s).answers = [(q, r)] := by simp [settled_answers h]
  have p : parkedAt s q = none := by simp [parkedAt, hq, contSteward]
  simp only [settle, a, complete]
  rw [e, p]
  simp only [deliver, hq, settle_settled h]

theorem endRetired_none {s t : State} (h : retiresNone s t) (u : State) :
    endRetired ((retiredStacks t).filter fun k => !(retiredStacks s).contains k) u = u := by
  have : ((retiredStacks t).filter fun k => !(retiredStacks s).contains k) = [] := by
    simp only [List.filter_eq_nil_iff, retiredStacks, List.mem_filter, upto, List.mem_range]
    rintro k ⟨hk, h2⟩
    have := h k hk (by simpa using h2)
    simp [hk, this]
  rw [this]; rfl

theorem conclude_of_settle {f : State → State} {s t : State} (h : settle settleFuel (f s) = t)
    (hr : retiresNone s t) : conclude f s = noteBusy s t := by
  simp only [conclude, h, endRetired_none hr]

/-- A command whose effect leaves nothing to be done. -/
theorem perform_of_settle {ok : State → Bool} {f : State → State} {s t : State} (hok : ok s = true)
    (h : settle settleFuel (f s) = t) (hr : retiresNone s t) : perform ok f s = .next (s.after t) := by
  simp only [perform, run, hok, if_true, conclude_of_settle h hr, State.after]

theorem perform_settled {ok : State → Bool} {f : State → State} {s : State} (hok : ok s = true)
    (h : (f s).settled) (hr : retiresNone s (f s)) : perform ok f s = .next (s.after (f s)) :=
  perform_of_settle hok (settle_settled h _) hr

/-- A command whose effect is an answer that concerns nobody, and no more. -/
theorem perform_answered {ok : State → Bool} {f : State → State} {s t : State} {q : Req} {r : Resp}
    (hok : ok s = true) (hf : f s = answer q r t) (hq : q.cont = .none) (h : t.settled) (hr : retiresNone s t) :
    perform ok f s = .next (s.after t) :=
  perform_of_settle hok (by rw [hf, settleFuel]; exact settle_answered h hq r _) hr

theorem perform_refused {ok : State → Bool} {f : State → State} {s : State} (hok : ok s = false) :
    perform ok f s = .next s := by simp [perform, run, hok]

/-- A command with which no word of core SRAM goes wrong. -/
@[simp] theorem performFinding_nil (ok : State → Bool) (f : State → State) (s : State) :
    performFinding [] ok f s = perform ok f s := by
  cases s; simp [performFinding]

/-! ## What keeps a state settled -/

/-- States that agree in everything that may wait to be done. -/
def sameWork (s t : State) : Prop :=
  t.answers = s.answers ∧ t.held = s.held ∧ t.parked = s.parked ∧ t.images = s.images ∧ t.fab.gateway = s.fab.gateway
    ∧ t.fab.repin = s.fab.repin ∧ t.eth.ingress = s.eth.ingress ∧ t.eth.ingressB = s.eth.ingressB ∧ t.eth.qps = s.eth.qps
    ∧ t.spl = s.spl ∧ (∀ x ∈ t.hbmStacks, x ∈ s.hbmStacks ∨ x.2.due = []) ∧ (tmpBlocked s → tmpBlocked t)
    ∧ (∀ p, s.dark p → t.dark p) ∧ ∀ g, gateOpen t g → gateOpen s g

theorem settled_of_sameWork {s t : State} (h : s.settled) (e : sameWork s t) : t.settled := by
  obtain ⟨e1, e2, e3, e4, e5, e6, e7, e8, e9, e10, d, bl, dk, g⟩ := e
  simp only [State.settled, Bool.and_eq_true, List.all_eq_true, Bool.not_eq_true', Bool.or_eq_true] at h ⊢
  obtain ⟨⟨⟨⟨⟨⟨⟨⟨a, b⟩, pk⟩, im⟩, du⟩, gw⟩, ib, ic⟩, q⟩, f⟩ := h
  rw [e1, e2, e3, e4, e5, e6, e7, e8, e9, e10]
  refine ⟨⟨⟨⟨⟨⟨⟨⟨a, fun x hx => ?_⟩, fun x hx => dk _ (pk x hx)⟩, im⟩, fun x hx => ?_⟩, gw⟩, ib, ic.imp id bl⟩, q⟩, f⟩
  · have := b x hx
    cases hg : gateOpen t x.gate with
    | false => rfl
    | true => rw [g _ hg] at this; exact this
  · rcases d x hx with h | h
    · exact du x h
    · simp [h]

/-- Gates stay closed where no polder becomes ACTIVE, no pseudo-channel is let go and nothing leaves a pool. -/
theorem gates_of {s t : State} (hp : ∀ p, (t.polder p).state = 0 → (s.polder p).state = 0)
    (hk : ∀ k pc, (s.stack k).channelHeld pc → (t.stack k).channelHeld pc)
    (hf : ∀ k, poolFull s k → poolFull t k) : ∀ g, gateOpen t g → gateOpen s g := by
  intro g; cases g with
  | polder p => simpa [gateOpen] using hp p
  | channel k pc =>
    simp only [gateOpen, Bool.not_eq_true']
    intro h
    cases hs : (s.stack k).channelHeld pc with
    | false => rfl
    | true => rw [hk k pc hs] at h; cases h
  | stack k =>
    simp only [gateOpen, Bool.not_eq_true']
    intro h
    cases hs : poolFull s k with
    | false => rfl
    | true => rw [hf k hs] at h; cases h
  | lost => exact id

end Sys2Proof.Machine
end

