-- ==== Sys2Proof/Laws/Access.lean ====
section
/-! SUPPORT. What a write of a register comes to: the issuer's stage is dropped, and the register's fields take the
value by their access codes. -/

namespace Sys2Proof.Machine

/-! ## Bytes -/

@[simp] theorem leBytes_length (n v : Nat) : (leBytes n v).length = n := by
  induction n generalizing v with
  | zero => rfl
  | succ n ih => simp [leBytes, ih]

theorem leNat_leBytes (n v : Nat) : leNat (leBytes n v) = v % 256 ^ n := by
  induction n generalizing v with
  | zero => simp [leBytes, leNat, Nat.mod_one]
  | succ n ih =>
    simp only [leBytes, leNat, ih, BitVec.toNat_ofNat]
    rw [show (2 : Nat) ^ 8 = 256 from rfl, Nat.pow_succ, Nat.mul_comm (256 ^ n) 256, Nat.mod_mul]

theorem leNat_leBytes_lt {n v : Nat} (h : v < 256 ^ n) : leNat (leBytes n v) = v := by
  rw [leNat_leBytes, Nat.mod_eq_of_lt h]

/-! ## Homes of registers -/

theorem pageAt_base : ∀ p ∈ chipPages, chipPages.find? (fun q => pageBase q == pageBase p) = some p
    ∧ pageBase p % 0x1000 = 0 ∧ 0xE000000000 ≤ pageBase p ∧ pageBase p < 0xE001000000 := by decide

/-- The address of a register of a chip page names it (R408). -/
theorem homeOf_chip {p : PageId} (hp : p ∈ chipPages) {off : Nat} (h : off < 0x1000) (s : State) :
    homeOf s (pageBase p + off) = .chip (some p) off := by
  obtain ⟨h1, h2, h3, h4⟩ := pageAt_base p hp
  have e : alignDown (pageBase p + off) 0x1000 = pageBase p := by simp only [alignDown]; omega
  have e2 : (pageBase p + off) % 0x1000 = off := by omega
  have e3 : pageAt (pageBase p + off) = some p := by simp only [pageAt, e]; exact h1
  unfold homeOf
  rw [e3, e2]
  repeat rw [if_neg (by omega)]
  rw [if_pos (by omega)]

/-- The address of a register of a core's control page names it (R17). -/
theorem homeOf_core {c : Nat} (hc : c < 10240) {off : Nat} (h : off < 0x1000) (s : State) :
    homeOf s (pageBase (.core c) + off) = .ctrl c off := by
  have e : pageBase (.core c) = 0xD000000000 + c * 0x4000 := rfl
  have e1 : (pageBase (.core c) + off - 0xD000000000) / 0x4000 = c := by omega
  have e2 : (pageBase (.core c) + off) % 0x4000 = off := by omega
  unfold homeOf
  rw [e1, e2]
  repeat rw [if_neg (by omega)]
  rw [if_pos (by omega), windowHome, if_pos h]

theorem pageStore_whole {p : PageId} {off v : Nat} {q : Req} {s : State} {d : RegDef} (hd : regDef p off = some d)
    (ha : off % 8 = 0) (hh : coilHole p off = false) (hc : coilDataOf p off = none)
    (hs : p = .sec → off ≠ 0x130) :
    pageStore p off 8 v q s = (some (.ok []), commitWrite q.who p off v (dropStage p off q.who s)) := by
  have e : alignDown off 8 = off := by simp [alignDown, ha]
  have hs' : ¬ (p = .sec ∧ off = 304 ∧ secIssuer q.who = false) := fun h => hs h.1 h.2.1
  simp [pageStore, e, ha, hd, hh, hc, hs']

/-- The write of a register that is no data coil's, no command coil's and not SEC_CMD. -/
theorem writeReg_eq {who : Issuer} {p : PageId} {off v : Nat} {s : State} {d : RegDef} (hp : realPage p)
    (ho : off < 0x1000) (hb : mayWrite s who p off v) (hv : v < 2 ^ 64) (hd : regDef p off = some d)
    (ha : off % 8 = 0) (hh : coilHole p off = false) (hc : coilDataOf p off = none)
    (hs : p = .sec → off ≠ 0x130) :
    writeReg who p off v s = answer ⟨who, pageBase p + off, .none, 0xFFF⟩ (.ok [])
      (commitWrite who p off v (dropStage p off who s)) := by
  have hl : leNat (leBytes 8 v) = v := leNat_leBytes_lt hv
  have key : pageAccess p off ⟨who, pageBase p + off, .none, 0xFFF⟩ (.store (leBytes 8 v)) s
      = (some (.ok []), commitWrite who p off v (dropStage p off who s)) := by
    simp only [pageAccess, leBytes_length, hl]
    exact pageStore_whole hd ha hh hc hs
  have hb' : barrier s ⟨who, pageBase p + off, .none, 0xFFF⟩ (.store (leBytes 8 v)) = .clear := hb
  by_cases h : ∃ c, p = .core c
  · obtain ⟨c, rfl⟩ := h
    simp only [writeReg, submit, serveAny, hb', homeOf_core hp ho, key, answerOpt]
  · have hp' : p ∈ chipPages := by
      cases p <;> first | exact absurd ⟨_, rfl⟩ h | exact hp
    simp only [writeReg, submit, serveAny, hb', homeOf_chip hp' ho, key, answerOpt]

/-- A command that writes a register, where what the write comes to leaves nothing to be done. -/
theorem perform_writeReg {ok : State → Bool} {who : Issuer} {p : PageId} {off v : Nat} {s t : State} {d : RegDef}
    (hok : ok s = true) (hp : realPage p) (ho : off < 0x1000) (hb : mayWrite s who p off v) (hv : v < 2 ^ 64)
    (hd : regDef p off = some d) (ha : off % 8 = 0) (hh : coilHole p off = false) (hc : coilDataOf p off = none)
    (hs : p = .sec → off ≠ 0x130) (ht : commitWrite who p off v (dropStage p off who s) = t) (h : t.settled)
    (hr : retiresNone s t) : perform ok (writeReg who p off v) s = .next (s.after t) :=
  perform_answered hok (by rw [writeReg_eq hp ho hb hv hd ha hh hc hs, ht]) rfl h hr

/-- What stands before a checked operation on a sync word does not depend on the operation. -/
theorem barrier_sync {s : State} {q : Req} {key : Nat} (h : homeOf s q.addr = .sync key) (op : SyncOp) :
    barrier s q (.sync op) = barrier s q (.sync .read) := by
  unfold barrier
  rw [h]
  cases q.who <;> rfl

/-- An access to core SRAM that leaves no gate closed passes: neither end of it is a hole (R26, R416). -/
theorem barrier_sram {s : State} {q : Req} {acc : Acc} {c a : Nat} (home : homeOf s q.addr = .sram c a)
    (last : homeOf s (q.addr + accLen acc - 1) ≠ .hole) (gate : crossing s q.who (.sram c a) q.addr false = .clear) :
    barrier s q acc = .clear := by
  have e : (homeOf s (q.addr + accLen acc - 1) == Home.hole) = false := by simpa using last
  have e2 : (Home.sram c a == Home.hole) = false := rfl
  have r : reaches s q.who (.sram c a) acc = true := rfl
  have ab : absentFor s q.who (.sram c a) acc (accLen acc) = none := rfl
  have ch : channelGate s q.who (.sram c a) (accLen acc) .ordinary = .clear := rfl
  simp only [barrier, home]
  rw [gate]
  simp only [r, e, e2, ab, ch, Bool.not_true, Bool.and_false, Bool.false_and, Bool.false_or, Bool.false_eq_true, if_false]

end Sys2Proof.Machine
end

