-- ==== Sys2Proof/Laws/Crossings.lean ====
section
/-! SUPPORT. What a reset does to the transfers in flight at crossings (R418). -/

namespace Sys2Proof.Machine

/-- Only the held transfers and the count of free values change. -/
theorem crossFates_state (gone target : Held → Bool) (l : List Held) (s : State) :
    (crossFates gone target l s).2 = { s with freeCount := (crossFates gone target l s).2.freeCount } := by
  induction l generalizing s with
  | nil => rfl
  | cons h r ih =>
    simp only [crossFates]
    split
    · exact ih s
    · exact ih s
    · split
      · exact ih s
      · exact ih s
    · split
      · rw [ih]; rfl
      · exact ih s

/-- Every transfer that is left stands at a gate at which one stood, or is lost. -/
theorem crossFates_gate {gone target : Held → Bool} {l : List Held} {s : State} {x : Held}
    (hx : x ∈ (crossFates gone target l s).1) : x.gate = .lost ∨ ∃ h ∈ l, x.gate = h.gate := by
  have up {a : Held} {r : List Held} (h : x.gate = .lost ∨ ∃ h ∈ r, x.gate = h.gate) :
      x.gate = .lost ∨ ∃ h ∈ a :: r, x.gate = h.gate :=
    h.imp id fun ⟨y, hy, e⟩ => ⟨y, List.mem_cons_of_mem _ hy, e⟩
  induction l generalizing s with
  | nil => simp [crossFates] at hx
  | cons h r ih =>
    have keep (hx : x ∈ h :: (crossFates gone target r s).1) : x.gate = .lost ∨ ∃ k ∈ h :: r, x.gate = k.gate := by
      rcases List.mem_cons.mp hx with rfl | hx
      · exact .inr ⟨_, List.mem_cons_self .., rfl⟩
      · exact up (ih hx)
    simp only [crossFates] at hx
    split at hx
    · exact keep hx
    · exact keep hx
    · split at hx
      · exact up (ih hx)
      · exact keep hx
    · split at hx
      · rcases List.mem_append.mp hx with hx | hx
        · simp only [crossFate] at hx
          split at hx
          · simp only [List.mem_singleton] at hx; exact .inr ⟨h, List.mem_cons_self .., by rw [hx]⟩
          · simp only [List.mem_cons, List.not_mem_nil, or_false] at hx
            rcases hx with rfl | rfl <;> exact .inr ⟨_, List.mem_cons_self .., rfl⟩
          · split at hx
            · simp at hx
            · simp only [List.mem_singleton] at hx; exact .inl (by rw [hx])
        · exact up (ih hx)
      · exact keep hx

/-- A reset's effect on the crossings leaves everything else of the state as it was. -/
theorem resetCrossings_frame (gone target : Held → Bool) (s : State) :
    resetCrossings gone target s
      = { s with held := (resetCrossings gone target s).held, freeCount := (resetCrossings gone target s).freeCount } := by
  simp only [resetCrossings]
  rw [crossFates_state]

/-- No gate opens by it. -/
theorem resetCrossings_closed {gone target : Held → Bool} {s : State} (h : s.held.all fun x => !gateOpen s x.gate) :
    (resetCrossings gone target s).held.all fun x => !gateOpen s x.gate := by
  rw [List.all_eq_true] at h ⊢
  intro x hx
  rcases crossFates_gate (show x ∈ (crossFates gone target s.held s).1 from hx) with e | ⟨y, hy, e⟩
  · rw [e]; rfl
  · rw [e]; exact h y hy

end Sys2Proof.Machine
end

