-- ==== Sys2Proof/Laws/Mem.lean ====
section
/-! SUPPORT. Every operation on memory keeps the canonical form, and what one read or write can be. -/

namespace Sys2Proof.Machine

/-- Cells that begin at or after an address begin at or after every lower one. -/
theorem Mem.wfFrom_mono {lo lo' : Nat} (h : lo' ≤ lo) {m : Mem} (hm : Mem.wfFrom lo m = true) :
    Mem.wfFrom lo' m = true := by
  cases m with
  | nil => rfl
  | cons c r =>
    obtain ⟨a, v⟩ := c
    simp only [Mem.wfFrom, Bool.and_eq_true, decide_eq_true_eq] at hm ⊢
    exact ⟨⟨by omega, hm.1.2⟩, hm.2⟩

theorem Mem.wfFrom_set {m : Mem} {lo a : Nat} (v : Byte) (h : lo ≤ a) (hm : Mem.wfFrom lo m = true) :
    Mem.wfFrom lo (Mem.set m a v) = true := by
  induction m generalizing lo with
  | nil => by_cases hv : v = 0#8 <;> simp [Mem.set, Mem.wfFrom, hv, h]
  | cons c r ih =>
    obtain ⟨b, w⟩ := c
    have hm' := hm
    simp only [Mem.wfFrom, Bool.and_eq_true, decide_eq_true_eq] at hm
    obtain ⟨⟨h1, h2⟩, h3⟩ := hm
    simp only [Mem.set]
    split
    · split
      · exact hm'
      · rename_i hab hv
        simp only [Mem.wfFrom, Bool.and_eq_true, decide_eq_true_eq]
        exact ⟨⟨h, hv⟩, ⟨by omega, h2⟩, h3⟩
    · split
      · split
        · exact Mem.wfFrom_mono (by omega) h3
        · rename_i hab hv
          subst hab
          simp only [Mem.wfFrom, Bool.and_eq_true, decide_eq_true_eq]
          exact ⟨⟨h, hv⟩, h3⟩
      · simp only [Mem.wfFrom, Bool.and_eq_true, decide_eq_true_eq]
        exact ⟨⟨h1, h2⟩, ih (by omega) h3⟩

/-- Writing a byte keeps the canonical form. -/
theorem Mem.wf_set {m : Mem} (hm : m.wf = true) (a : Nat) (v : Byte) : (m.set a v).wf = true :=
  Mem.wfFrom_set v (Nat.zero_le a) hm

/-- Writing bytes keeps the canonical form. -/
theorem Mem.wf_write {m : Mem} (hm : m.wf = true) (a : Nat) (bs : List Byte) : (m.write a bs).wf = true := by
  induction bs generalizing m a with
  | nil => exact hm
  | cons b r ih => exact ih (Mem.wf_set hm a b) (a + 1)

theorem Mem.wfFrom_filter {m : Mem} {lo : Nat} (p : Host.Cell → Bool) (hm : Mem.wfFrom lo m = true) :
    Mem.wfFrom lo (m.filter p) = true := by
  induction m generalizing lo with
  | nil => rfl
  | cons c r ih =>
    obtain ⟨b, w⟩ := c
    simp only [Mem.wfFrom, Bool.and_eq_true, decide_eq_true_eq] at hm
    obtain ⟨⟨h1, h2⟩, h3⟩ := hm
    rw [List.filter_cons]
    split
    · simp only [Mem.wfFrom, Bool.and_eq_true, decide_eq_true_eq]
      exact ⟨⟨h1, h2⟩, ih h3⟩
    · exact Mem.wfFrom_mono (by omega) (ih h3)

/-- Zeroing a range keeps the canonical form. -/
theorem Mem.wf_clear {m : Mem} (hm : m.wf = true) (lo hi : Nat) : (m.clear lo hi).wf = true :=
  Mem.wfFrom_filter _ hm

/-- Memory after reset is in canonical form. -/
theorem Mem.wf_reset : State.reset.mem.wf = true ∧ State.reset.wmem.wf = true ∧ State.reset.flash.wf = true :=
  ⟨rfl, rfl, rfl⟩

/-- A zeroed range reads as zero, and no other address changes. -/
theorem Mem.get_clear (m : Mem) (lo hi a : Nat) :
    (m.clear lo hi).get a = if lo ≤ a ∧ a < hi then 0#8 else m.get a := by
  induction m with
  | nil => simp [Mem.clear, Mem.get]
  | cons c r ih =>
    obtain ⟨b, w⟩ := c
    simp only [Mem.clear] at ih ⊢
    rw [List.filter_cons]
    by_cases hab : b = a
    · subst hab
      split
      · rename_i hb
        simp only [Bool.or_eq_true, decide_eq_true_eq] at hb
        rw [if_neg (by omega)]
        simp [Mem.get]
      · rename_i hb
        simp only [Bool.or_eq_true, decide_eq_true_eq, not_or] at hb
        rw [ih, if_pos (by omega), if_pos (by omega)]
    · split <;> simp [Mem.get, hab, ih]

theorem Mem.length_readFrom (m : Mem) (a n : Nat) : (Mem.readFrom m a n).length = n := by
  induction n generalizing m a with
  | zero => cases m <;> simp [Mem.readFrom]
  | succ n ih =>
    cases m with
    | nil => simp [Mem.readFrom]
    | cons c r => unfold Mem.readFrom; split <;> simp [ih]

/-- A read of n bytes is n bytes. -/
@[simp] theorem Mem.length_read (m : Mem) (a n : Nat) : (m.read a n).length = n := Mem.length_readFrom _ a n

end Sys2Proof.Machine
end

