-- ==== Sys2Proof/WellFormed.lean ====
section
/-! DEFINITION. Which commands are well formed: every unit they name is one the device has, every field fits
its width. The meanings leave the state as it is where a command names a unit that is absent. -/

namespace Sys2Proof

/-- A page the device has (R17, R408). -/
def PageId.wf : PageId → Bool
  | .core c => decide (c < 10240) | .fport p => decide (p < 16)
  | .stk k => decide (k < 12) | .msc k => decide (k < 12) | .spl k => decide (k < 12)
  | _ => true

/-- An issuer that exists. -/
def Issuer.wf : Issuer → Bool
  | .steward c => decide (c < 10240) | .arrays c _ => decide (c < 10240) | .side c _ => decide (c < 10240)
  | .vector c _ => decide (c < 10240) | .strand c n _ => decide (c < 10240) && decide (n < 8)
  | .warden w => decide (w < 2)
  | .host qp => decide (2 ≤ qp) && decide (qp < 514)
  | .tmp ip port => decide (ip < 2 ^ 128) && decide (port < 2 ^ 16)
  | .device d port => decide (d < 4096) && decide (port < 16)
  | .splice k tag => decide (k < 12) && decide (tag < 4096)
  | .aux k => decide (k < 12) | .sender k => decide (k < 12)
  | .knot => true | .fanout => true

/-- A request with a local address (R22). -/
def Req.wf (q : Req) : Bool := q.who.wf && decide (q.addr < 2 ^ 40) && decide (q.dev < 4096)

/-- A packet with at most 4,096 B of data (R303). -/
def Packet.wf (p : Packet) : Bool := decide (p.data.length ≤ 4096)

/-- A frame whose header fields fit their widths (R364). -/
def Frame.wf (f : Frame) : Bool :=
  decide (f.srcMac < 2 ^ 48) && decide (f.dstMac < 2 ^ 48) && (f.vlan.all fun v => decide (v < 4096))
    && decide (f.srcIp < 2 ^ 128) && decide (f.dstIp < 2 ^ 128) && decide (f.srcPort < 2 ^ 16)

/-- A RoCE packet whose fields fit their widths (R368). -/
def RocePkt.wf (p : RocePkt) : Bool :=
  decide (p.qpn < 2 ^ 24) && decide (p.psn < 2 ^ 24) && decide (p.va < 2 ^ 64) && decide (p.rkey < 2 ^ 32)
    && decide (p.len < 2 ^ 32) && decide (p.data.length ≤ 4096)

/-- A waiter of the engines. -/
def Waiter.wf : Waiter → Bool
  | .strand n => decide (n < 8)
  | _ => true

/-- A word of core SRAM (R35). -/
def SramFind.wf (f : SramFind) : Bool := decide (f.off < 0x40000)

/-- A word of core SRAM by its local address (R23). -/
def BankFind.wf (f : BankFind) : Bool := decide (0xC000000000 ≤ f.addr) && decide (f.addr < 0xC0A0000000)

/-- A byte of a stack (R23). -/
def HbmFind.wf (f : HbmFind) : Bool := decide (f.off < 0x1000000000)

/-- Is the command well formed? -/
def Instr.wf : Instr → Bool
  | .stewardLaunch c => decide (c < 10240)
  | .stewardInstruction c found => decide (c < 10240) && found.all BankFind.wf
  | .stewardLoad c found => decide (c < 10240) && found.all BankFind.wf
  | .stewardStore c => decide (c < 10240)
  | .stewardAmo c found => decide (c < 10240) && found.all BankFind.wf
  | .lr c found => decide (c < 10240) && found.all BankFind.wf
  | .sc c => decide (c < 10240)
  | .fenceI c => decide (c < 10240)
  | .wrsNto c => decide (c < 10240)
  | .wrsSto c => decide (c < 10240)
  | .wrsWake c => decide (c < 10240)
  | .wrsLimitExpiry c => decide (c < 10240)
  | .stewardInterrupt c => decide (c < 10240)
  | .sdtimecmpMatch c => decide (c < 10240)
  | .moveToIdle who c => who.wf && decide (c < 10240)
  | .coreStwMsip who c _ => who.wf && decide (c < 10240)
  | .push who c port width _ => who.wf && decide (c < 10240) && decide (port < 3) && (width == 4 || width == 8)
  | .pushStallRelease c => decide (c < 10240)
  | .restartArrays who c => who.wf && decide (c < 10240)
  | .restartSidePath who c => who.wf && decide (c < 10240)
  | .restart who c => who.wf && decide (c < 10240)
  | .strandPortRestart who c => who.wf && decide (c < 10240)
  | .flush who c port => who.wf && decide (c < 10240) && decide (port < 2)
  | .strandPortFlush who c => who.wf && decide (c < 10240)
  | .matrixRecordStage c => decide (c < 10240)
  | .matrixRecordStart c _ => decide (c < 10240)
  | .tileSetFill c finds => decide (c < 10240) && finds.all SramFind.wf
  | .swap c finds => decide (c < 10240) && finds.all SramFind.wf
  | .drain c finds => decide (c < 10240) && finds.all SramFind.wf
  | .sideListWork c finds => decide (c < 10240) && finds.all SramFind.wf
  | .sideRecord c finds => decide (c < 10240) && finds.all SramFind.wf
  | .matrixRecordComplete c _ => decide (c < 10240)
  | .syncWaitTimeout c w => decide (c < 10240) && w.wf
  | .chainRecordTake c => decide (c < 10240)
  | .chainRecordStart c => decide (c < 10240)
  | .chainRow c finds _ => decide (c < 10240) && finds.all SramFind.wf
  | .chainRecordComplete c => decide (c < 10240)
  | .coilStreamResume c finds _ => decide (c < 10240) && finds.all SramFind.wf
  | .coreSfuLoad who c _ => who.wf && decide (c < 10240)
  | .sfuLoadApply c finds => decide (c < 10240) && finds.all SramFind.wf
  | .strandRecordTake c finds => decide (c < 10240) && finds.all SramFind.wf
  | .strandStart c n => decide (c < 10240) && decide (n < 8)
  | .strandIssue c finds => decide (c < 10240) && finds.all SramFind.wf
  | .braidTile c => decide (c < 10240)
  | .blockLands c n => decide (c < 10240) && decide (n < 8)
  | .releaseObserved c n => decide (c < 10240) && decide (n < 8)
  | .strandComplete c n => decide (c < 10240) && decide (n < 8)
  | .strandResume who c n => who.wf && decide (c < 10240) && decide (n < 8)
  | .strandCancel who c n => who.wf && decide (c < 10240) && decide (n < 8)
  | .strandStall c n => decide (c < 10240) && decide (n < 8)
  | .setPresent who _ => who.wf
  | .setAbsent who _ => who.wf
  | .syncWordRead q => q.wf
  | .syncWordSet q _ => q.wf
  | .syncWordAdd q v => q.wf && decide (-(2 ^ 63) ≤ v) && decide (v < 2 ^ 64)
  | .syncWordSwap q _ => q.wf
  | .syncWordCmpSwap q _ _ => q.wf
  | .put q _ => q.wf
  | .take q => q.wf
  | .launchPut q _ => q.wf
  | .bollardTimeout c => decide (c < 10240)
  | .coreKnotArrive who c _ => who.wf && decide (c < 10240)
  | .knotCancel who k => who.wf && decide (k < 64)
  | .hallCancel who h => who.wf && decide (h < 16)
  | .deviceArrival who h => who.wf && decide (h < 16)
  | .knotMaskLoad who _ => who.wf
  | .chipKnotWatchdog k => decide (k < 64)
  | .hallKnotWatchdog h => decide (h < 16)
  | .knotArrive port p => decide (port < 16) && p.wf
  | .knotRelease port p => decide (port < 16) && p.wf
  | .coilDataStore q n _ => q.wf && decide (3 ≤ n) && decide (n ≤ 15)
  | .coilDataLoad q n => q.wf && decide (3 ≤ n) && decide (n ≤ 15)
  | .coilAccessResume c => decide (c < 10240)
  | .coilTimeout c => decide (c < 10240)
  | .commit who c n => who.wf && decide (c < 10240) && decide (3 ≤ n) && decide (n ≤ 15)
  | .belay who c n => who.wf && decide (c < 10240) && decide (3 ≤ n) && decide (n ≤ 15)
  | .rewind who c n => who.wf && decide (c < 10240) && decide (3 ≤ n) && decide (n ≤ 15)
  | .release who c n => who.wf && decide (c < 10240) && decide (3 ≤ n) && decide (n ≤ 15)
  | .coilCfgApply c => decide (c < 10240)
  | .hbmRead q len _ finds => q.wf && decide (1 ≤ len) && decide (len ≤ 4096) && finds.all HbmFind.wf
  | .hbmWrite q data cls finds => q.wf && decide (1 ≤ data.length) && decide (data.length ≤ 4096)
      && cls != .last && finds.all HbmFind.wf
  | .retrainTokenGrant k => decide (k < 12)
  | .retrainAttemptEnd k _ => decide (k < 12)
  | .migrationCopy k finds => decide (k < 12) && finds.all HbmFind.wf
  | .calibration k pc => decide (k < 12) && decide (pc < 32)
  | .scrub k finds => decide (k < 12) && finds.all HbmFind.wf
  | .refreshInterval k => decide (k < 12)
  | .hbmErrorWindow k => decide (k < 12)
  | .mscWriteBack who k => who.wf && decide (k < 12)
  | .mscWriteBackInvalidate who k => who.wf && decide (k < 12)
  | .mscCmdDone k => decide (k < 12)
  | .softRepair who k _ => who.wf && decide (k < 12)
  | .hardRepair who k _ => who.wf && decide (k < 12)
  | .laneRemap who k _ => who.wf && decide (k < 12)
  | .repairComplete k _ => decide (k < 12)
  | .stk1500Instr who k _ => who.wf && decide (k < 12)
  | .stk1500DataWrite who k _ => who.wf && decide (k < 12)
  | .stk1500DataRead q k => q.wf && decide (k < 12)
  | .flitReceive port half flit _ badLanes => decide (port < 16) && decide (half < 2)
      && decide (flit.length = 256) && badLanes.all (· < 8)
  | .laneLockLoss port lane => decide (port < 16) && decide (lane < 8)
  | .fportRetrain who port half => who.wf && decide (port < 16) && decide (half < 2)
  | .linkRetrainAttemptEnd port half failed => decide (port < 16) && decide (half < 2) && failed.all (· < 8)
  | .fportReinstate who port half => who.wf && decide (port < 16) && decide (half < 2)
  | .fabricErrorWindow port => decide (port < 16)
  | .linkUp port half => decide (port < 16) && decide (half < 2)
  | .linkHello port half p => decide (port < 16) && decide (half < 2) && p.wf
  | .read port p found => decide (port < 16) && p.wf && found.all BankFind.wf
  | .write port p => decide (port < 16) && p.wf
  | .spliceAcc port p => decide (port < 16) && p.wf
  | .spliceMax port p => decide (port < 16) && p.wf
  | .syncAdd port p => decide (port < 16) && p.wf
  | .syncSub port p => decide (port < 16) && p.wf
  | .syncSet port p => decide (port < 16) && p.wf
  | .syncRead port p => decide (port < 16) && p.wf
  | .bollardPut port p => decide (port < 16) && p.wf
  | .bollardTake port p => decide (port < 16) && p.wf
  | .mirrorWrite port p => decide (port < 16) && p.wf
  | .fanOutWrite port p => decide (port < 16) && p.wf
  | .fanOutAnswer _ => true
  | .response port p => decide (port < 16) && p.wf
  | .fabTimeout reqId => decide (reqId < 2 ^ 16)
  | .fabCreditStall port half vl => decide (port < 16) && decide (half < 2) && decide (vl < 5)
  | .fabRouteLoad who _ => who.wf
  | .fabFanoutCmd who _ => who.wf
  | .fanoutDescriptor => true
  | .fanoutComplete => true
  | .fabMirrorCmd who _ => who.wf
  | .splTagOpen who k _ => who.wf && decide (k < 12)
  | .zeroingComplete k tag => decide (k < 12) && decide (tag < 4096)
  | .verdict k tag => decide (k < 12) && decide (tag < 4096)
  | .readOutComplete k tag => decide (k < 12) && decide (tag < 4096)
  | .spliceAbort who k _ => who.wf && decide (k < 12)
  | .spliceTimeout k tag => decide (k < 12) && decide (tag < 4096)
  | .splSendCmd who k _ => who.wf && decide (k < 12)
  | .sendDescriptor k => decide (k < 12)
  | .sendComplete k => decide (k < 12)
  | .sketch who k _ => who.wf && decide (k < 12)
  | .maskExpand who k _ => who.wf && decide (k < 12)
  | .arp f target senderIp senderMac => f.wf && decide (target < 2 ^ 32) && decide (senderIp < 2 ^ 32)
      && decide (senderMac < 2 ^ 48)
  | .neighbourSolicitation f target => f.wf && decide (target < 2 ^ 128)
  | .pfcFrame f prios _ => f.wf && prios.all (· < 8)
  | .rdmaWrite f p => f.wf && p.wf
  | .rdmaRead f p found => f.wf && p.wf && found.all BankFind.wf
  | .atomicFetchAdd f p found => f.wf && p.wf && found.all BankFind.wf
  | .atomicCmpSwap f p found => f.wf && p.wf && found.all BankFind.wf
  | .rdmaWriteWithImmediate f p => f.wf && p.wf
  | .send f p => f.wf && p.wf
  | .cnp f p => f.wf && p.wf
  | .dcqcnTimer qp => decide (qp < 512)
  | .dcqcnByteCounter qp => decide (qp < 512)
  | .ethLinkDown => true
  | .ethLinkUp => true
  | .regRead f m => f.wf && decide (m.length ≤ 9216)
  | .regWrite f m => f.wf && decide (m.length ≤ 9216)
  | .qpSet f m _ => f.wf && decide (m.length ≤ 9216)
  | .qpQuery f m _ => f.wf && decide (m.length ≤ 9216)
  | .regionSet f m _ => f.wf && decide (m.length ≤ 9216)
  | .eventDest f m _ => f.wf && decide (m.length ≤ 9216)
  | .fwBegin f m => f.wf && decide (m.length ≤ 9216)
  | .eraseComplete => true
  | .fwChunk f m => f.wf && decide (m.length ≤ 9216)
  | .fwCommit f m => f.wf && decide (m.length ≤ 9216)
  | .fwStatus f m => f.wf && decide (m.length ≤ 9216)
  | .activate => true
  | .attest f m => f.wf && decide (m.length ≤ 9216)
  | .quoteBuilt => true
  | .identity f m => f.wf && decide (m.length ≤ 9216)
  | .tmpDenialWindow => true
  | .eventDatagram => true
  | .registerWrite q width _ => q.wf && (width == 4 || width == 8)
  | .lowWordRead q => q.wf
  | .highWordRead q => q.wf
  | .lowWordWrite q _ => q.wf
  | .highWordWrite q _ => q.wf
  | .hold who p _ => who.wf && p.wf
  | .apply who p => who.wf && p.wf
  | .force who p => who.wf && p.wf
  | .applyBoundary p _ => p.wf
  | .configurationComparison p => p.wf
  | .evtAck who p _ => who.wf && p.wf
  | .eventLog => true
  | .pageLimitWindow => true
  | .saturationWindow c => decide (c < 10240)
  | .sluDrain who p => who.wf && decide (p < 256)
  | .sluWake who p => who.wf && decide (p < 256)
  | .sluResetCore who target => who.wf && decide (target < 0x4000)
  | .sluResetPolder who target => who.wf && decide (target < 0x4000)
  | .sluResetFabricPort who target => who.wf && decide (target < 0x4000)
  | .sluResetHostPort who => who.wf
  | .sluResetChip who => who.wf
  | .coreReset c => decide (c < 10240)
  | .polderReset p => decide (p < 160)
  | .fabricPortReset p => decide (p < 16)
  | .hostPortReset => true
  | .chipReset => true
  | .drainDelayExpiry p => decide (p < 160)
  | .drainingComplete p => decide (p < 160)
  | .wakeEvent p _ => decide (p < 160)
  | .wakeLeadExpiry p => decide (p < 160)
  | .powerUpGrant => true
  | .wakeComplete p => decide (p < 160)
  | .governorWindow _ => true
  | .vinValid => true
  | .vinOff => true
  | .pwrEnRise => true
  | .pwrEnFall => true
  | .pwrGood => true
  | .pwrGoodLoss => true
  | .resetNAssert => true
  | .warmStart => true
  | .thermalTrip _ _ => true
  | .presentNChange _ => true
  | .slotVerify _ => true
  | .stackTrainingComplete failed => failed.all (· < 12)
  | .initComplete => true
  | .startWatchdog => true
  | .burnSvn who _ => who.wf
  | .clearLogEntry who _ => who.wf
  | .pmbusTelemetrySample _ => true
  | .clearFaults _ => true
  | .statusWord _ => true
  | .statusInput _ => true
  | .statusTemperature _ => true
  | .readVin _ => true
  | .readIin _ => true
  | .readTemperature1 _ => true
  | .readTemperature2 _ => true
  | .readTemperature3 _ => true
  | .readPin _ => true
  | .pmbusRevision _ => true
  | .mfrId _ => true
  | .mfrModel _ => true
  | .mfrSerial _ => true
  | .mfrCoolId _ => true
  | .pmbusInvalidCommand code _ => decide (code < 256)
  | .auxCommandComplete k => decide (k < 12)
  | .calibrationComplete k => decide (k < 12)
  | .bringupWriteBackComplete k => decide (k < 12)

end Sys2Proof
end

