-- ==== Sys2Proof/Tests/Slice0.lean ====
section
/-! SUPPORT. Tests: ill-formed terms are refused, and for every statement about a state or a command a state
and operands that meet its hypotheses, beside what the command does there. A clause's hypotheses stand first;
`out` says that the command answers a next state and what holds of it. -/

namespace Sys2Proof.Tests

set_option Elab.async false

open Sys2Proof.Machine

/-- The command answers a next state of which p holds. -/
def out (c : Instr) (s : State) (p : State → Prop) [∀ t, Decidable (p t)] : Bool :=
  match exec c s with
  | .next t => decide (p t)
  | _ => false

/-- A device in READY, 1,000,000 ticks after its power came. -/
def ready : State := { State.reset with now := 1000000, sec := { State.reset.sec with state := 4 } }

/-- The same with one core as given. -/
def coreIs (c : Nat) (v : Core) : State := ready.setCore c v

/-- A TMP client that may write every page. -/
def tmp : Issuer := .tmp 5 6

/-! ## The module, power, resets and starts -/

theorem witness_PmbusCommands : 1 ≤ ready.module.power ∧ Pec.good ≠ .bad
    ∧ out (.pmbusRevision .good) ready (fun t => t.sent = [.pmbus [0x33#8]])
    ∧ out (.pmbusInvalidCommand 0x99 .good) ready (fun t => t.module.stCml = 0x80 ∧ t.module.pmbAlertN = false)
    ∧ out (.readVin .bad) ready (fun t => t.module.stCml = 0x20 ∧ t.sent = []) := by decide +kernel

theorem witness_ModulePower :
    (let s := { ready with module := { ready.module with vin := false, power := 0 } };
      s.module.vin = false ∧ out .vinValid s (fun t => t.module.power = 1 ∧ t.module.vin))
    ∧ (ready.module.vin = true ∧ out .vinOff ready (fun t => t.sec.state = 0 ∧ t.module.power = 0))
    ∧ (let s := { ready with module := { ready.module with pwrEn := false, time := 50000000, power := 1 } };
      s.module.pwrEn = false ∧ out .pwrEnRise s (fun t => t.module.power = 2))
    ∧ (ready.module.pwrEn = true ∧ out .pwrEnFall ready (fun t => t.module.power = 1 ∧ t.sec.state = 0))
    ∧ (ready.powered ∧ out .pwrGoodLoss ready (fun t => t.sec.state = 0)) := by decide +kernel

theorem witness_Sensors : (2 < 3 ∧ 1 ≤ ready.module.power
    ∧ out (.thermalTrip 2 125) ready (fun t => t.module.tripN = false ∧ t.sec.state = 0)
    ∧ out (.thermalTrip 2 124) ready (fun t => t.module.tripN ∧ t.sec.state = 4))
    ∧ out (.pmbusTelemetrySample ⟨12000, 1, 2, 3, 4, 5⟩) ready (fun t => t.module.tele.vin = 12000) := by decide +kernel

theorem witness_ResetsAndStarts_power :
    let s := { ready with
      sec := { ready.sec with state := 0 }, module := { ready.module with time := 1000000 }, mem := [(5, 1#8)] };
    s.sec.state = 0 ∧ s.module.vin = true ∧ s.module.pwrEn = true ∧ s.module.enOk = true ∧ s.module.tripN = true
      ∧ s.module.vinSince + 1000000 ≤ s.module.time
      ∧ out .pwrGood s (fun t => t.now = 0 ∧ t.sec.state = 1 ∧ t.mem = []) := by decide +kernel

theorem witness_ResetsAndStarts_resets :
    (ready.powered ∧ out .resetNAssert ready (fun t => t.sec.state = 1 ∧ t.sec.inReset ∧ t.module.resetN = false))
    ∧ (let s := { ready with slu := { ready.slu with resets := [(5, 0, 1000000)] } };
      s.powered ∧ (∃ r ∈ s.slu.resets, r.1 = 5 ∧ r.2.2 ≤ s.now)
        ∧ out .chipReset s (fun t => t.sec.state = 1 ∧ t.slu.resets = []))
    ∧ (let s := { ready with sec := { ready.sec with activateAt := some 1000000 } };
      s.powered ∧ s.sec.activateAt = some 1000000 ∧ 1000000 ≤ s.now
        ∧ out .activate s (fun t => t.sec.state = 1 ∧ t.sec.sampReload ∧ t.sec.activateAt = none))
    ∧ (let s := { ready with sec := { ready.sec with activateAt := some 1000000, state := 6 } };
      s.powered ∧ s.sec.state = 6 ∧ out .activate s (fun t => t.sec.kind = 0 ∧ t.sec.inReset = false)) := by decide +kernel

theorem witness_ResetsAndStarts_starts :
    (let s := { ready with sec := { ready.sec with state := 1, inReset := true } };
      s.powered ∧ s.sec.inReset = true ∧ out .warmStart s (fun t => t.sec.kind = 1 ∧ t.sec.slot = 2 ∧ t.sec.t0 = 1000000))
    ∧ (let s := { ready with now := 800000000, sec := { ready.sec with state := 2 } };
      s.sec.state = 2 ∧ s.sec.inReset = false ∧ s.sec.t0 + 800000000 ≤ s.now
        ∧ out .startWatchdog s (fun t => t.sec.restarts = 1 ∧ t.sec.failSlots = [1])) := by decide +kernel

theorem witness_StartSteps_verify : State.reset.sec.state = 1 ∧ State.reset.sec.inReset = false ∧ State.reset.sec.slot < 2
    ∧ out (.slotVerify true) State.reset (fun t => t.sec.state = 1 ∧ t.sec.slot = 1 ∧ t.sec.causeA ≠ 0) := by decide +kernel

/-- A device whose stacks train, with stored results of the stacks in `l`. -/
def training (batch kind : Nat) (l : List Nat := []) : State :=
  { ready with sec := { ready.sec with
    state := 2, batch := batch, kind := kind, trained := l.map fun k => (k, 7, crc32c (leBytes 8 7)) } }

theorem witness_StartSteps_training :
    ((training 0 0).sec.state = 2 ∧ (training 0 0).sec.inReset = false ∧ (training 0 0).sec.batch = 0
      ∧ out (.stackTrainingComplete []) (training 0 0) (fun t => t.sec.batch = 1))
    ∧ ((training 1 0).sec.batch = 1 ∧ (training 1 0).sec.escalated = [] ∧ (∀ k < 12, ((training 1 0).stack k).trainFails ≠ 1)
      ∧ out (.stackTrainingComplete []) (training 1 0) (fun t => t.sec.state = 3))
    ∧ (5 < 6 ∧ 5 ∉ (training 0 0).sec.logStacks ∧ ((training 0 0).stack 5).state ≠ 2 ∧ ((training 0 0).stack 5).trainFails = 0
      ∧ out (.stackTrainingComplete [5]) (training 0 0) (fun t => (t.stack 5).trainFails = 1)
      ∧ (∀ j ∈ batchMembers (training 0 1 (upto 6)) 0, j ≠ 5 → trainingKept (training 0 1 (upto 6)) j)
      ∧ out (.stackTrainingComplete [5]) (training 0 1 (upto 6)) (fun t => t.sec.escalated = [5])
      ∧ trainingKept (training 0 1 (upto 5)) 5 = false
      ∧ out (.stackTrainingComplete []) (training 0 1 (upto 5)) (fun t => t.sec.escalated = [5])
      ∧ out (.stackTrainingComplete []) (training 0 1 (upto 6)) (fun t => t.sec.escalated = [] ∧ t.sec.batch = 1)) := by
  decide +kernel

theorem witness_StartSteps_init :
    let s := { ready with sec := { ready.sec with state := 3, logStacks := [7] }, mem := [(0xC000000000, 1#8)] };
    s.sec.state = 3 ∧ s.sec.inReset = false
      ∧ out .initComplete s (fun t => t.sec.state = 5 ∧ (t.stack 7).state = 2 ∧ t.mem = []) := by decide +kernel

theorem witness_SecCommands : ready.powered ∧ secIssuer (.warden 0) ∧ ¬ secIssuer (.steward 0) ∧ bits 0xB 3 0 ≤ 11
    ∧ out (.burnSvn (.warden 0) 0x100) ready (fun t => t.sec.fwCause = 12 ∧ t.sec.svn = 0)
    ∧ out (.clearLogEntry (.warden 0) 11) { ready with sec := { ready.sec with logStacks := [3, 11] } }
      (fun t => t.sec.logStacks = [3])
    ∧ out (.clearLogEntry (.steward 0) 11) { ready with sec := { ready.sec with logStacks := [3, 11] } }
      (fun t => t.sec.logStacks = [3, 11]) := by
  unfold secIssuer; decide +kernel

/-! ## The sluice -/

/-- A device in service with polder 159 as given. -/
def polderIs (v : Polder) : State := ready.setPolder 159 v

theorem witness_PolderPower_commands :
    (ready.settled ∧ ready.live ∧ 159 < 160 ∧ mayWrite ready tmp .slu 0x138 (0x100 + 159) ∧ (ready.polder 159).state = 0
      ∧ polderQuiet ready 159 ∧ out (.sluDrain tmp 159) ready (fun t => (t.polder 159).state = 1))
    ∧ (let s := coreIs 10239 { stw := { st := .run } };
      s.settled ∧ mayWrite s tmp .slu 0x138 (0x100 + 159) ∧ ¬ polderQuiet s 159
        ∧ out (.sluDrain tmp 159) s (fun t => (t.polder 159).state = 0 ∧ (t.polder 159).drainAsked))
    ∧ (let s := polderIs { state := 2 };
      s.settled ∧ s.live ∧ mayWrite s tmp .slu 0x138 (0x200 + 159) ∧ (s.polder 159).state ≠ 0 ∧ (s.polder 159).wake = none
        ∧ out (.sluWake tmp 159) s (fun t => (t.polder 159).wake = some (1000000, 5)))
    ∧ (160 ≤ 255 ∧ 255 < 256 ∧ mayWrite ready tmp .slu 0x138 (0x100 + 255)
      ∧ out (.sluDrain tmp 255) ready (fun t => (t.evt.inputs.flatMap id).map (·.code) = [evSluCmdBad])) := by
  unfold mayWrite mayStore; decide +kernel

theorem witness_PolderPower_drain :
    (let s := polderIs { drainAsked := true };
      s.settled ∧ polderDrainDue s 159 ∧ out (.drainDelayExpiry 159) s (fun t => (t.polder 159).state = 1))
    ∧ (let s := polderIs { state := 1 };
      s.settled ∧ s.live ∧ (s.polder 159).state = 1 ∧ (s.polder 159).wake = none
        ∧ out (.drainingComplete 159) s (fun t => (t.polder 159).state = 2))
    ∧ (let s := polderIs { state := 2, wake := some (1000000, 5) };
      s.settled ∧ s.live ∧ wakeDue s 159 (causeCode .command)
        ∧ out (.wakeEvent 159 .command) s (fun t => (t.polder 159).state = 3))
    ∧ (let s := polderIs { state := 2, leads := [(1000000, 10239, 0)] };
      s.settled ∧ s.live ∧ leadDue s 159 ∧ out (.wakeLeadExpiry 159) s (fun t => (t.polder 159).wake = some (1000000, 3))) := by
  decide +kernel

theorem witness_PolderPower_wake :
    (let s := polderIs { state := 3 };
      s.settled ∧ s.live ∧ (∃ p < 160, (s.polder p).state = 3 ∧ (s.polder p).granted = false)
        ∧ out .powerUpGrant s (fun t => (t.polder 159).granted))
    ∧ (let s := polderIs { state := 3, granted := true, wake := some (999990, 4) };
      s.settled ∧ s.live ∧ (s.polder 159).granted = true ∧ (s.polder 159).wake = some (999990, 4) ∧ (s.polder 159).knots = []
        ∧ (∀ h ∈ s.held, h.gate ≠ .polder 159)
        ∧ out (.wakeComplete 159) s (fun t => (t.polder 159).state = 0 ∧ (t.polder 159).wakes = 1
          ∧ t.slu.wakeLast = 4 * 2 ^ 40 + 159 * 2 ^ 32 + 10)) := by
  decide +kernel

theorem witness_DomainResets_commands : ready.settled ∧ ready.live ∧ mayWrite ready tmp .slu 0x140 (1 * 0x10000 + 10239)
    ∧ mayWrite ready tmp .slu 0x140 (5 * 0x10000 + 0)
    ∧ out (.sluResetCore tmp 10239) ready (fun t => t.slu.resets = [(1, 10239, 1001000)])
    ∧ out (.sluResetChip tmp) ready (fun t => t.slu.resets = [(5, 0, 1001000)]) := by
  unfold mayWrite mayStore; decide +kernel

theorem witness_DomainResets_resets :
    (let s := { coreIs 70 { late := 3 } with slu := { ready.slu with resets := [(1, 70, 1000000)] } };
      s.settled ∧ s.live ∧ resetDue s 1 70
        ∧ out (.coreReset 70) s (fun t => t.core 70 = { stw := { cycles := { since := some 1000000 } } }))
    ∧ (let s := { coreIs 70 { late := 3 } with slu := { ready.slu with resets := [(2, 1, 1000000)] } };
      s.settled ∧ s.live ∧ resetDue s 2 1
        ∧ out (.polderReset 1) s (fun t => t.core 70 = { stw := { cycles := { since := some 1000000 } } }))
    ∧ (let s := { ready.setPort 15 { split := true } with slu := { ready.slu with resets := [(3, 15, 1000000)] } };
      s.settled ∧ s.live ∧ resetDue s 3 15
        ∧ out (.fabricPortReset 15) s (fun t => (t.port 15).split = false ∧ (t.port 15).link0.state = 2))
    ∧ (let s := { ready with slu := { ready.slu with resets := [(4, 0, 1000000)] }, eth := { ready.eth with link := 3 } };
      s.settled ∧ s.live ∧ resetDue s 4 0 ∧ out .hostPortReset s (fun t => t.eth.link = 0)) := by
  decide +kernel

/-! ## Register pages and events -/

/-- A page with PRIORITY limit 2 pending. -/
def pended (rel : Bool) : State := ready.setPage .evt { pend := [(0x100, ⟨0xFFFF, 2, rel⟩)], hold := rel }

theorem witness_RegisterAccesses_write : ready.settled ∧ ready.live ∧ PageId.evt ∈ chipPages ∧ PageId.evt ≠ .knot
    ∧ regDef .evt 0x100 = some ⟨0xFFFF, 0, 0, 0x40⟩ ∧ mayWrite ready tmp .evt 0x100 0xFFFF0003
    ∧ out (.registerWrite ⟨tmp, pageBase .evt + 0x100, .none, 0xFFF⟩ 8 0xFFFF0003) ready
      (fun t => t.pendOf .evt 0x100 = ⟨0xFFFF, 3, false⟩ ∧ t.reg .evt 0x100 = 0x40) := by
  unfold mayWrite mayStore; decide +kernel

theorem witness_RegisterAccesses_words :
    barrier ready ⟨tmp, pageBase .evt + 0x150, .none, 0xFFF⟩ (.store (leBytes 4 7)) = .clear
    ∧ regDef .evt 0x150 = some ⟨0x7fffffffffffffff, 0, 0, 0x7fffffffffffffff⟩
    ∧ out (.lowWordWrite ⟨tmp, pageBase .evt + 0x150, .none, 0xFFF⟩ 7) ready
      (fun t => (t.page .evt).stages = [⟨tmp, 0x150, 7⟩] ∧ (t.page .evt).pend = [])
    ∧ (let s := ready.setPage .evt { stages := [⟨tmp, 0x150, 7⟩] };
      findHalf (s.page .evt).stages tmp 0x150 = some ⟨tmp, 0x150, 7⟩
        ∧ barrier s ⟨tmp, pageBase .evt + 0x154, .none, 0xFFF⟩ (.store (leBytes 4 1)) = .clear
        ∧ out (.highWordWrite ⟨tmp, pageBase .evt + 0x154, .none, 0xFFF⟩ 1) s
          (fun t => t.pendOf .evt 0x150 = ⟨0x7fffffffffffffff, 0x100000007, false⟩ ∧ (t.page .evt).stages = [])) := by
  decide +kernel

theorem witness_RegisterAccesses_reads : coilHole .evt 0x150 = false ∧ coilDataOf .evt 0x150 = none
    ∧ freeCounter .evt 0x150 = false
    ∧ barrier ready ⟨tmp, pageBase .evt + 0x150, .none, 0xFFF⟩ (.load 4 false) = .clear
    ∧ out (.lowWordRead ⟨tmp, pageBase .evt + 0x150, .none, 0xFFF⟩) ready
      (fun t => (t.page .evt).shadows = [⟨tmp, 0x150, 0x7fffffff⟩])
    ∧ (let s := ready.setPage .evt { shadows := [⟨tmp, 0x150, 9⟩] };
      findHalf (s.page .evt).shadows tmp 0x150 = some ⟨tmp, 0x150, 9⟩
        ∧ barrier s ⟨tmp, pageBase .evt + 0x154, .none, 0xFFF⟩ (.load 4 false) = .clear
        ∧ out (.highWordRead ⟨tmp, pageBase .evt + 0x154, .none, 0xFFF⟩) s (fun t => (t.page .evt).shadows = []))
    ∧ findHalf (ready.page .evt).shadows tmp 0x150 = none
    ∧ barrier ready ⟨tmp, pageBase .evt + 0x154, .none, 0xFFF⟩ (.load 4 false) = .clear
    ∧ out (.highWordRead ⟨tmp, pageBase .evt + 0x154, .none, 0xFFF⟩) ready (fun t => t.pages = ready.pages) := by
  decide +kernel

theorem witness_RegisterAccesses_steward :
    let s := coreIs 3 { stw := { wait := .access 4 0xE000001154 5 } };
    awaits s 3 4 0xE000001154 5
      ∧ barrier s ⟨.steward 3, pageBase .evt + 0x154, .toReg 3 5 4 false, 0xFFF⟩ (.load 4 false) = .clear
      ∧ out (.highWordRead ⟨.steward 3, pageBase .evt + 0x154, .toReg 3 5 4 false, 0xFFF⟩) s
        (fun t => (t.core 3).stw.get 5 = 0x7fffffff ∧ (t.core 3).stw.wait = .nothing)
      ∧ findHalf (s.page .evt).stages tmp 0x150 = none ∧ s.regNewest .evt 0x150 % 2 ^ 32 = 0xffffffff
      ∧ out (.highWordWrite ⟨tmp, pageBase .evt + 0x154, .none, 0xFFF⟩ 1) s
        (fun t => t.pendOf .evt 0x150 = ⟨0x7fffffffffffffff, 0x1ffffffff, false⟩) := by
  unfold awaits; decide +kernel

theorem witness_HoldApplyForce_control : PageId.evt ∈ chipPages ∧ (pended false).settled ∧ (pended false).live
    ∧ (ready.page .knot).pend = [] ∧ mayWrite (pended false) tmp .evt 0x018 (b2n true)
    ∧ out (.hold tmp .evt true) (pended false) (fun t => (t.page .evt).hold)
    ∧ mayWrite (pended false) tmp .evt 0x018 (0x100 + b2n ((pended false).page .evt).hold)
    ∧ out (.apply tmp .evt) (pended false) (fun t => (t.page .evt).pend = [(0x100, ⟨0xFFFF, 2, true⟩)])
    ∧ mayWrite ready tmp .evt 0x048 17 ∧ out (.evtAck tmp .evt 17) ready (fun t => (t.page .evt).evAck = 17) := by
  unfold mayWrite mayStore; decide +kernel

theorem witness_HoldApplyForce_pending : PageId.evt ∈ [PageId.evt, .slu, .sec, .pres, .dist, .roce]
    ∧ (∀ rel, ((pended rel).page .evt).pend = [(0x100, ⟨0xFFFF, 2, rel⟩)] ∧ boundaryOf .evt 0x100 = .page)
    ∧ mayWrite (pended true) tmp .evt 0x018 (0x200 + b2n true)
    ∧ out (.force tmp .evt) (pended true) (fun t => t.reg .evt 0x100 = 2 ∧ (t.page .evt).pend = [])
    ∧ out (.applyBoundary .evt .page) (pended true) (fun t => t.reg .evt 0x100 = 2 ∧ (t.page .evt).pend = [])
    ∧ (let s := ready.setPage .evt { pend := [(0x100, ⟨0xFFFF, 2, false⟩)], hold := true };
      (s.page .evt).hold = true ∧ out (.applyBoundary .evt .page) s (fun t => t.pages = s.pages)) := by
  unfold mayWrite mayStore; decide +kernel

theorem witness_Comparison : (pended false).settled ∧ compareDue (pended false) .evt
    ∧ ((pended false).page .evt).pend ≠ []
    ∧ out (.configurationComparison .evt) (pended false) (fun t => (t.page .evt).skipped)
    ∧ compareDue ready .evt ∧ (ready.page .evt).pend = []
    ∧ crc32c (pageImage ready .evt) = ready.reg .evt 0x020 % 2 ^ 32
    ∧ out (.configurationComparison .evt) ready (fun t => (t.page .evt).drift = false)
    ∧ (let s := ready.setReg .evt 0x100 0;
      compareDue s .evt ∧ (s.page .evt).mismatch = false ∧ crc32c (pageImage s .evt) ≠ s.reg .evt 0x020 % 2 ^ 32
        ∧ out (.configurationComparison .evt) s (fun t => (t.page .evt).drift ∧ t.evt.driftLast = 0xE000001000)) := by
  decide +kernel

theorem witness_Windows :
    (let s := coreIs 10239 { satCount := 7, satWindow := 3 };
      s.settled ∧ s.powered ∧ 10239 < 10240 ∧ s.field (.core 10239) 0x400 31 0 = 100000
        ∧ (s.core 10239).satWindow ≠ s.now / s.field (.core 10239) 0x400 31 0
        ∧ out (.saturationWindow 10239) s (fun t => (t.core 10239).satCount = 0 ∧ (t.core 10239).satWindow = 10))
    ∧ (let s := ready;
      let g : GovReadings := ⟨5, 7, s.field .gov 0x108 23 16, 0, 0, 0, 0⟩;
      s.powered ∧ s.gov.window ≤ s.now / 1000 ∧ (s.page .gov).pend = []
        ∧ (s.field .gov 0x108 23 16 : Int) ≤ g.hottest
        ∧ out (.governorWindow g) { s with gov := { s.gov with capEff := 400, begun := true } }
          (fun t => t.gov.capEff = 300 ∧ t.gov.therm)
        ∧ out (.governorWindow g) { s with gov := { s.gov with capEff := 0, begun := true } }
          (fun t => t.gov.capEff = 0 ∧ t.gov.debt = 50000000)
        ∧ out (.governorWindow { g with hottest := 20 }) s (fun t => t.gov.therm = false ∧ t.gov.window = 1001)) := by
  decide +kernel

/-- A raise of the EVT page waits at its input, its page having logged n. -/
def raised (n limit : Nat) : State :=
  { (ready.setPage .evt { evCount := [(evConfigDrift % 64, n)] }).setReg .evt 0x100 limit with
    evt := { ready.evt with window := 10, inputs := put ready.evt.inputs (collectorInput .evt) [⟨.evt, evConfigDrift, 5, 6⟩] } }

theorem witness_EventLog : (raised 1 2).powered ∧ servedInputs (raised 1 2) = [collectorInput .evt]
    ∧ nth [] (raised 1 2).evt.inputs (collectorInput .evt) = [⟨.evt, evConfigDrift, 5, 6⟩]
    ∧ (raised 1 2).now / 100000 ≤ (raised 1 2).evt.window
    ∧ aget 0 (evConfigDrift % 64) ((raised 1 2).page .evt).evCount < (raised 1 2).field .evt 0x100 15 0
    ∧ out .eventLog (raised 1 2) (fun t => t.evt.next = 2 ∧ t.evt.log.map (·.time) = [5])
    ∧ (raised 2 2).field .evt 0x100 15 0 ≤ aget 0 (evConfigDrift % 64) ((raised 2 2).page .evt).evCount
    ∧ (raised 2 2).field .evt 0x100 15 0 ≠ 0
    ∧ out .eventLog (raised 2 2) (fun t => t.evt.next = 1 ∧ t.evt.dropped = 1)
    ∧ (let s := { ready with evt := { ready.evt with inputs := (upto 5).map fun i => [⟨.evt, evConfigDrift, i, 6⟩] } };
      servedInputs s = [0, 1, 2, 3] ∧ out .eventLog s (fun t => t.evt.next = 5 ∧ t.evt.pointer = 4 ∧ servedInputs t = []))
    ∧ ready.evt.window < ready.now / 100000 ∧ out .pageLimitWindow ready (fun t => t.evt.window = 10) := by
  decide +kernel

theorem witness_EventDatagram :
    let s := { ready with
      eth := { ready.eth with link := 3, destEn := true, destIp := 9, destPort := 8 }
      evt := { ready.evt with next := 2, log := [⟨1, 5, evConfigDrift, 17, 6, 0⟩] } };
    datagramDue s ∧ out .eventDatagram s (fun t => t.evt.sent = 2 ∧ t.sent.length = 1) := by decide +kernel

theorem witness_RaisesDropped :
    let s := { ready with evt := { ready.evt with
      inputs := put ready.evt.inputs (collectorInput .evt) (List.replicate 256 ⟨.evt, evConfigDrift, 5, 6⟩) } };
    256 ≤ (nth [] s.evt.inputs (collectorInput .evt)).length ∧ (raiseEv .evt evConfigDrift 0 s).evt.dropped = 1
      ∧ (nth [] ready.evt.inputs (collectorInput .evt)).length < 256 := by decide +kernel

/-- The hall address of an offset in core 70's SRAM on a device whose ID is not set. -/
def own (off : Nat) : Nat := 0xFFF * 2 ^ 40 + sramAddr 70 off

/-- Core 70's steward at offset 0x100 of its SRAM, before an instruction; x6 points to offset 0x208, x7 holds 5; bytes of
SRAM may be given. -/
def runs (w : Nat) (more : Steward → Steward) (bytes : Mem := []) : State :=
  { coreIs 70 { stw := more { st := .run, pc := word (own 0x100)
                              x := put (put (List.replicate 32 0) 6 (word (own 0x208))) 7 5
                              csr := [(0x305, own 0x400)] } } with
    mem := Mem.write bytes (sramAddr 70 0x100) (leBytes 4 w) }

/-- What the instruction cache holds after the fetch. -/
def fetchedLine (w : Nat) : List (Nat × List Byte) := [(own 0x100, leBytes 4 w ++ List.replicate 60 0#8)]

/-! ## Stewards -/

theorem witness_StewardControl_launch :
    (let s := coreIs 70 { bol := { full := [(0, word (5 * 2 ^ 52 + own 0x100))] } };
      s.settled ∧ launchDue s 70 ∧ (s.core 70).bol.waits = []
        ∧ alookup 0 (s.core 70).bol.full = some (word (5 * 2 ^ 52 + own 0x100))
        ∧ out (.stewardLaunch 70) s (fun t => (t.core 70).stw.st = .run ∧ (t.core 70).stw.pc = word (own 0x100)
          ∧ (t.core 70).stw.get 10 = 5 ∧ t = { s with cores := t.cores, slu := t.slu }))
    ∧ (let s := runs 0 id;
      s.settled ∧ s.live ∧ mayWrite s tmp (.core 70) 0x110 1 ∧ (s.core 70).stw.wait = .nothing
        ∧ out (.moveToIdle tmp 70) s (fun t => (t.core 70).stw.st = .idle
          ∧ t = { s with cores := t.cores, slu := t.slu, pages := t.pages }))
    ∧ (mayWrite ready tmp (.core 70) 0x118 1 ∧ out (.coreStwMsip tmp 70 1) ready (fun t => (t.core 70).stw.msip)) := by
  unfold mayWrite mayStore; decide +kernel

theorem witness_StewardControl_interrupt :
    (let s := runs 0 fun w => { w with msip := true, csr := [(0x300, 8), (0x304, 8), (0x305, own 0x401)] };
      s.settled ∧ stwRunnable s 70 ∧ interruptDue s 70 = some 3
        ∧ out (.stewardInterrupt 70) s (fun t => (t.core 70).stw.pc = word (own 0x40C)
          ∧ (t.core 70).stw.csrVal 0x341 = own 0x100 ∧ (t.core 70).stw.csrVal 0x342 = 2 ^ 63 + 3
          ∧ t = { s with cores := t.cores, slu := t.slu }))
    ∧ (let s := runs 0 fun w => { w with msip := true, csr := [(0x300, 8), (0x304, 8)] };
      interruptDue s 70 = some 3 ∧ (s.core 70).stw.csrVal 0x305 = 0
        ∧ out (.stewardInterrupt 70) s (fun t => (t.core 70).stw.st = .halt ∧ (t.core 70).stw.haltPc = own 0x100
          ∧ t = { s with cores := t.cores, slu := t.slu, evt := t.evt }))
    ∧ (let s := (coreIs 70 { stw := { csr := [(0x7C0, 1000000), (0x304, 128)] } }).setPolder 1 { state := 2 };
      s.settled ∧ s.live ∧ (s.core 70).stw.csrVal 0x7C0 ≤ s.now ∧ (s.polder (polderOf 70)).state ≠ 0
        ∧ (s.polder (polderOf 70)).wake = none ∧ ((s.core 70).stw.csrVal 0x304).testBit 7 = true
        ∧ out (.sdtimecmpMatch 70) s (fun t => (t.polder 1).wake = some (1000000, 3))) := by decide +kernel

theorem witness_StewardControl_wrs :
    (let s := runs 0x01D00073 fun w => { w with monitor := some (sramAddr 70 0x208, false) };
      s.settled ∧ s.bankFinds = [] ∧ fetches s 70 [] 0x01D00073 4 (fetchedLine 0x01D00073)
        ∧ decodeRv 0x01D00073 = .wrs true ∧ enabledInterrupts s 70 = 0
        ∧ out (.wrsSto 70) s (fun t => (t.core 70).stw.wait = .wrs true 1000000))
    ∧ (let s := runs 0x00D00073 id;
      fetches s 70 [] 0x00D00073 4 (fetchedLine 0x00D00073) ∧ decodeRv 0x00D00073 = .wrs false
        ∧ (s.core 70).stw.monitor = none
        ∧ out (.wrsNto 70) s (fun t => (t.core 70).stw.pc = word (own 0x104) ∧ (t.core 70).stw.wait = .nothing))
    ∧ (let s := { runs 0 fun w => { w with wait := .wrs false 999000, monitor := some (sramAddr 70 0x208, true) } with
        mons := [⟨70, sramAddr 70 0x208⟩] };
      s.settled ∧ wrsWakeDue s 70 ∧ out (.wrsWake 70) s (fun t => (t.core 70).stw.pc = word (own 0x104) ∧ t.mons = []
        ∧ t = { s with cores := t.cores, slu := t.slu, mons := t.mons }))
    ∧ (let s := runs 0 fun w => { w with wait := .wrs true 999914, monitor := some (sramAddr 70 0x208, false) };
      s.settled ∧ wrsLimitDue s 70 ∧ (s.polder (polderOf 70)).state = 0
        ∧ out (.wrsLimitExpiry 70) s (fun t => (t.core 70).stw.pc = word (own 0x104)))
    ∧ (let s := (runs 0 fun w => { w with wait := .wrs true 999914 }).setPolder 1 { state := 2 };
      s.settled ∧ s.live ∧ wrsLimitDue s 70 ∧ (s.polder (polderOf 70)).state ≠ 0 ∧ (s.polder (polderOf 70)).wake = none
        ∧ out (.wrsLimitExpiry 70) s (fun t => (t.polder 1).wake = some (1000000, 3) ∧ t = { s with slu := t.slu })) := by
  unfold fetches; decide +kernel

theorem witness_StewardArithmetic :
    (let s := runs 0x007302B3 id;
      s.settled ∧ s.bankFinds = [] ∧ fetches s 70 [] 0x007302B3 4 (fetchedLine 0x007302B3)
        ∧ decodeRv 0x007302B3 = .reg .add 5 6 7
        ∧ out (.stewardInstruction 70 []) s (fun t => (t.core 70).stw.get 5 = word (own 0x20D)
          ∧ (t.core 70).stw.pc = word (own 0x104) ∧ t = { s with cores := t.cores, slu := t.slu }))
    ∧ (let s := runs 0xFFF38013 id;
      fetches s 70 [] 0xFFF38013 4 (fetchedLine 0xFFF38013) ∧ decodeRv 0xFFF38013 = .imm .add 0 7 (-1)
        ∧ out (.stewardInstruction 70 []) s (fun t => (t.core 70).stw.get 0 = 0 ∧ (t.core 70).stw.pc = word (own 0x104)))
    ∧ (let s := runs 0x00730463 id;
      fetches s 70 [] 0x00730463 4 (fetchedLine 0x00730463) ∧ decodeRv 0x00730463 = .branch .eq 6 7 8
        ∧ out (.stewardInstruction 70 []) s (fun t => (t.core 70).stw.pc = word (own 0x104)))
    ∧ (let s := runs 0x00730463 fun w => { w with x := put w.x 6 5 };
      fetches s 70 [] 0x00730463 4 (fetchedLine 0x00730463)
        ∧ out (.stewardInstruction 70 []) s (fun t => (t.core 70).stw.pc = word (own 0x108)))
    ∧ (let s := runs 0x0000100F id;
      fetches s 70 [] 0x0000100F 4 (fetchedLine 0x0000100F) ∧ decodeRv 0x0000100F = .fenceI
        ∧ out (.fenceI 70) s (fun t => (t.core 70).stw.icache = [] ∧ (t.core 70).stw.pc = word (own 0x104)))
    ∧ (let s := runs 0x00000073 id;
      fetches s 70 [] 0x00000073 4 (fetchedLine 0x00000073) ∧ decodeRv 0x00000073 = .ecall
        ∧ (s.core 70).stw.csrVal 0x305 ≠ 0
        ∧ out (.stewardInstruction 70 []) s (fun t => (t.core 70).stw.csrVal 0x342 = 11
          ∧ (t.core 70).stw.pc = word (own 0x400))) := by
  unfold fetches; decide +kernel

theorem witness_StewardMemory_load :
    let s := runs 0xFF832283 id [(sramAddr 70 0x203, 0x80#8)];
    s.settled ∧ s.bankFinds = [] ∧ fetches s 70 [] 0xFF832283 4 (fetchedLine 0xFF832283)
      ∧ decodeRv 0xFF832283 = .load 5 6 (-8) 4 true
      ∧ inOwnSram s 70 ((s.core 70).stw.get 6 + (-8)).toNat 4 0x200 0
      ∧ bankBad { s with bankFinds := [] } (sramAddr 70 0x200) 4 = none
      ∧ out (.stewardLoad 70 []) s (fun t => (t.core 70).stw.get 5 = 0xFFFFFFFF80000000
        ∧ t = { s with cores := t.cores, slu := t.slu }) := by
  unfold fetches inOwnSram; decide +kernel

theorem witness_StewardMemory_store :
    let s := { runs 0xFE732C23 id with resv := [(3, sramAddr 70 0x200)] };
    s.settled ∧ fetches s 70 [] 0xFE732C23 4 (fetchedLine 0xFE732C23) ∧ decodeRv 0xFE732C23 = .store 6 7 (-8) 4
      ∧ inOwnSram s 70 ((s.core 70).stw.get 6 + (-8)).toNat 4 0x200 1 ∧ unwatched s (sramAddr 70 0x200) 4
      ∧ out (.stewardStore 70) s (fun t => t.mem.read (sramAddr 70 0x200) 4 = [5#8, 0#8, 0#8, 0#8] ∧ t.resv = []
        ∧ (t.core 70).stw.pc = word (own 0x104)
        ∧ t = { s with cores := t.cores, slu := t.slu, mem := t.mem, resv := t.resv }) := by
  unfold fetches inOwnSram unwatched; decide +kernel

theorem witness_StewardMemory_amo :
    let s := runs 0x007332AF id [(sramAddr 70 0x208, 0xFF#8)];
    s.settled ∧ fetches s 70 [] 0x007332AF 4 (fetchedLine 0x007332AF) ∧ decodeRv 0x007332AF = .amo .add 5 6 7 8
      ∧ inOwnSram s 70 ((s.core 70).stw.get 6).toNat 8 0x208 1 ∧ unwatched s (sramAddr 70 0x208) 8
      ∧ bankBad { s with bankFinds := [] } (sramAddr 70 0x208) 8 = none
      ∧ out (.stewardAmo 70 []) s (fun t => leNat (t.mem.read (sramAddr 70 0x208) 8) = 0x104
        ∧ (t.core 70).stw.get 5 = 0xFF) := by
  unfold fetches inOwnSram unwatched; decide +kernel

theorem witness_StewardMemory_reservation :
    (let s := runs 0x100332AF id [(sramAddr 70 0x208, 7#8)];
      s.settled ∧ fetches s 70 [] 0x100332AF 4 (fetchedLine 0x100332AF) ∧ decodeRv 0x100332AF = .lr 5 6 8
        ∧ inOwnSram s 70 ((s.core 70).stw.get 6).toNat 8 0x208 0
        ∧ out (.lr 70 []) s (fun t => t.resv = [(70, sramAddr 70 0x208)] ∧ (t.core 70).stw.get 5 = 7))
    ∧ (let s := { runs 0x187332AF id with resv := [(70, sramAddr 70 0x208)] };
      fetches s 70 [] 0x187332AF 4 (fetchedLine 0x187332AF) ∧ decodeRv 0x187332AF = .sc 5 6 7 8
        ∧ inOwnSram s 70 ((s.core 70).stw.get 6).toNat 8 0x208 1 ∧ unwatched s (sramAddr 70 0x208) 8
        ∧ (70, alignDown (sramAddr 70 0x208) 8) ∈ s.resv
        ∧ out (.sc 70) s (fun t => leNat (t.mem.read (sramAddr 70 0x208) 8) = 5 ∧ t.resv = []
          ∧ (t.core 70).stw.get 5 = 0))
    ∧ (let s := runs 0x187332AF id;
      fetches s 70 [] 0x187332AF 4 (fetchedLine 0x187332AF) ∧ (70, alignDown (sramAddr 70 0x208) 8) ∉ s.resv
        ∧ out (.sc 70) s (fun t => t.mem = s.mem ∧ (t.core 70).stw.get 5 = 1)) := by
  unfold fetches inOwnSram unwatched; decide +kernel

/-- A hall address in the sync alias of core 70's SRAM on a device whose ID is not set. -/
def ownWord (off : Nat) : Nat := 0xFFF * 2 ^ 40 + sramAddr 70 off + 0x800000000

/-- A matrix record of one row, one set and one k-tile, S8 by S8, activations at 0, weights at 0x1000, FP32 output at 0x2000;
w0 has its other bits, wait and signal its last words. -/
def mxRec (w0 : Nat) (wait thr signal : Nat := 0) : List Word :=
  [word (1 + 2 ^ 20 + 2 ^ 34 + 2 ^ 48 + w0), word (0x400 * 2 ^ 18 + 0x1000 * 2 ^ 36), word 0x500,
    word (0x100 + 0x400 * 2 ^ 18 + 0x2000 * 2 ^ 36), word (0x100 + 9 * 2 ^ 18), word wait, word thr, word signal]

/-- TALLY_OUT, and a side record. -/
def mxOut : Nat := 2 ^ 18
def mxSide : Nat := 2 ^ 18 + 2 ^ 5

/-! ## Engine ports, matrix arrays and side path -/

theorem witness_EnginePorts_push :
    (let s := coreIs 70 { mx := { stage := put (List.replicate 16 0) 0 3 } };
      s.settled ∧ s.live ∧ mayStore s (.steward 70) (pageBase (.core 70) + (0x1000 + 0x400 * 0 + 8 * (recordWords 0 - 1))) (leBytes 8 9)
        ∧ portRoom s 70 0
        ∧ out (.push (.steward 70) 70 0 8 9) s (fun t => (t.core 70).mx.coil = [[3, 0, 0, 0, 0, 0, 0, 9]]
          ∧ (t.core 70).mx.pushed = 1 ∧ t = { s with cores := t.cores, slu := t.slu }))
    ∧ (let s := coreIs 70 { vx := { coil := List.replicate 8 [] }, vec := { halt := true } };
      mayStore s (.steward 70) (pageBase (.core 70) + (0x1000 + 0x400 * 1 + 8 * (recordWords 1 - 1))) (leBytes 8 9)
        ∧ ¬ portRoom s 70 1 ∧ portHalted s 70 1
        ∧ out (.push (.steward 70) 70 1 8 9) s (fun t => t = { s with evt := t.evt, slu := t.slu }
          ∧ (t.evt.inputs.flatMap id).map (·.code) = [evPortHalted]))
    ∧ (let s := coreIs 70 { sx := { coil := List.replicate 16 [] } };
      mayStore s (.steward 70) (pageBase (.core 70) + (0x1000 + 0x400 * 2 + 8 * (recordWords 2 - 1))) (leBytes 8 9)
        ∧ ¬ portRoom s 70 2 ∧ ¬ portHalted s 70 2
        ∧ out (.push (.steward 70) 70 2 8 9) s (fun t => (t.core 70).stalls.map (fun x => (x.port, x.val)) = [(2, 9)]
          ∧ (t.core 70).sx = (s.core 70).sx ∧ t = { s with cores := t.cores, slu := t.slu }))
    ∧ (let x : PushStall := ⟨2, 8, 9, ⟨.steward 70, 0, .none, 0xFFF⟩⟩;
      let s := coreIs 70 { sx := { coil := List.replicate 15 [] }, stalls := [x] };
      s.settled ∧ s.awake 70 ∧ stallDue s 70 = some x ∧ portRoom s 70 x.port
        ∧ out (.pushStallRelease 70) s (fun t => (t.core 70).stalls = [] ∧ (t.core 70).sx.coil.length = 16
          ∧ t = { s with cores := t.cores, slu := t.slu })) := by
  unfold mayStore; decide +kernel

theorem witness_EnginePorts_control :
    let s := coreIs 70 { arr := { halt := true, faulted := [0], run := some ⟨mxRec mxOut, 0, 0, 0⟩ }, sid := { halt := true, run := some (mxRec mxSide) }
                         vec := { halt := true, fault := some 1 }, mxFault := some 5
                         mx := { coil := [mxRec 0, mxRec 0] }, vx := { coil := [[]] } };
    s.settled ∧ s.live ∧ 70 < 10240
      ∧ mayStore s (.steward 70) (pageBase (.core 70) + (0x1000 + 0x400 * 0 + 0x88)) (leBytes 8 1)
      ∧ out (.restartArrays (.steward 70) 70) s (fun t => (t.core 70).arr.halt = false ∧ (t.core 70).mx.done = 1
        ∧ (t.core 70).mxFault = none ∧ (t.core 70).sid.halt ∧ t = { s with cores := t.cores, slu := t.slu })
      ∧ out (.restartSidePath (.steward 70) 70) s (fun t => (t.core 70).sid = {} ∧ (t.core 70).arr.halt)
      ∧ out (.restart (.steward 70) 70) s (fun t => (t.core 70).vec = {} ∧ (t.core 70).vx.done = 1)
      ∧ out (.flush (.steward 70) 70 0) s (fun t => (t.core 70).mx.coil = [] ∧ (t.core 70).mx.done = 2
        ∧ (t.core 70).arr.run = (s.core 70).arr.run)
      ∧ out (.flush (.steward 70) 70 1) s (fun t => (t.core 70).vx.coil = [] ∧ (t.core 70).vx.done = 1) := by
  unfold mayStore; decide +kernel

theorem witness_MatrixRecordBegins_stage :
    (let s := coreIs 70 { mx := { coil := [mxRec 0xE, mxRec mxOut] } };
      s.settled ∧ s.awake 70 ∧ mxStageDue s 70 ∧ mxFormatBad s (mxRec 0xE)
        ∧ out (.matrixRecordStage 70) s (fun t => (t.core 70).mx.coil = [mxRec mxOut] ∧ (t.core 70).mx.done = 1
          ∧ (t.core 70).arr = {} ∧ (t.evt.inputs.flatMap id).map (·.code) = [evMatrixFormat]
          ∧ t = { s with cores := t.cores, slu := t.slu, evt := t.evt }))
    ∧ (let w := mxRec (mxOut + 2 ^ 15) (ownWord 0x208) 1;
      let s := coreIs 70 { mx := { coil := [w] } };
      mxStageDue s 70 ∧ mxFormatBad s w = false ∧ (MRec.of w).side = false ∧ mxChainBad w (mxPred (s.core 70).arr) = false
        ∧ (MRec.of w).waitEn = true ∧ homeOf s (localOf (MRec.of w).waitAddr) = .sync (sramAddr 70 0x208)
        ∧ out (.matrixRecordStage 70) s (fun t => (t.core 70).arr.staged = some w
          ∧ t.waits = [⟨70, 0, sramAddr 70 0x208, 1, none⟩]
          ∧ t = { s with cores := t.cores, slu := t.slu, waits := t.waits }))
    ∧ (let s := coreIs 70 { mx := { coil := [mxRec mxSide] } };
      mxStageDue s 70 ∧ mxFormatBad s (mxRec mxSide) = false ∧ (MRec.of (mxRec mxSide)).side = true
        ∧ (MRec.of (mxRec mxSide)).waitEn = false
        ∧ out (.matrixRecordStage 70) s (fun t => (t.core 70).sid.staged = some (mxRec mxSide) ∧ t.waits = [])) := by
  decide +kernel

theorem witness_MatrixRecordBegins_start :
    (let s := coreIs 70 { arr := { staged := some (mxRec mxOut) } };
      s.settled ∧ s.awake 70 ∧ (s.page (.core 70)).pend = [] ∧ (s.core 70).arr.run = none ∧ (s.core 70).arr.halt = false
        ∧ mxWait s 70 (mxRec mxOut) = .holds ∧ mxChainBad (mxRec mxOut) (s.core 70).arr.held = false
        ∧ mxWaitOverdue s 70 false = false
        ∧ out (.matrixRecordStart 70 false) s (fun t => (t.core 70).arr.run = some ⟨mxRec mxOut, 0, 0, 0⟩
          ∧ (t.core 70).arr.tag = 9 ∧ t.evt = s.evt ∧ t = { s with cores := t.cores, slu := t.slu }))
    ∧ (let s := coreIs 70 { arr := { staged := some (mxRec mxOut), held := some (mxRec 0) } };
      mxChainBad (mxRec mxOut) (s.core 70).arr.held = true
        ∧ out (.matrixRecordStart 70 false) s (fun t => (t.core 70).mx.done = 1 ∧ (t.core 70).arr.staged = none))
    ∧ (let w := mxRec (mxOut + 2 ^ 15) (0xFFF * 2 ^ 40 + 0xCC00000000) 1;
      let s := (coreIs 70 { arr := { staged := some w } }).setStack 0 { state := 2 };
      s.settled ∧ mxWait s 70 w = .failed evAddrUnmapped
        ∧ out (.matrixRecordStart 70 false) s (fun t => (t.core 70).arr.halt ∧ t.mem = s.mem))
    ∧ (let w := mxRec (mxSide + 2 ^ 15) (0xFFF * 2 ^ 40 + 0xCC00000000) 1;
      let s := (coreIs 70 { sid := { staged := some w } }).setStack 0 { state := 2 };
      mxWait s 70 w = .failed evAddrUnmapped
        ∧ out (.matrixRecordStart 70 true) s (fun t => (t.core 70).sid.halt ∧ (t.core 70).sid.run = some w
          ∧ (t.core 70).arr = (s.core 70).arr ∧ t.mem = s.mem))
    ∧ (let s := coreIs 70 { sid := { staged := some (mxRec mxSide) } };
      mxWait s 70 (mxRec mxSide) = .holds ∧ (s.core 70).sid.run = none ∧ (s.core 70).sid.halt = false
        ∧ out (.matrixRecordStart 70 true) s (fun t => (t.core 70).sid.run = some (mxRec mxSide)
          ∧ t = { s with cores := t.cores, slu := t.slu })) := by
  decide +kernel

/-- A core whose arrays run a record; activation 0 of the row is 3, weight 0 of column 0 is 5. -/
def arrays (a : Arrays) : State :=
  { coreIs 70 { arr := a } with mem := Mem.write (Mem.write [] (sramAddr 70 0) [3#8]) (sramAddr 70 0x1000) [5#8] }

/-- The tile set of that record in the shadows. -/
def shadowSet : TileSet := ⟨0, (5#8 :: List.replicate 255 0#8, [], []) :: List.replicate 3 (List.replicate 256 0#8, [], [])⟩

theorem witness_TileSetsAndPasses_fill :
    (let s := arrays { run := some ⟨mxRec mxOut, 0, 0, 0⟩ };
      s.settled ∧ s.awake 70 ∧ s.bankFinds = [] ∧ fillDue s 70
        ∧ (∀ y ∈ ((MRec.of (mxRec mxOut)).setTiles 0 0).map (storedTile s 70 (MRec.of (mxRec mxOut))),
          y.2 = ([], []))
        ∧ out (.tileSetFill 70 []) s (fun t => (t.core 70).arr.shadow = some shadowSet
          ∧ (t.core 70).arr.run = some ⟨mxRec mxOut, 0, 1, 0⟩
          ∧ t = { s with cores := t.cores, slu := t.slu, evt := { s.evt with sramSeep := t.evt.sramSeep } }))
    ∧ (let w := mxRec (mxOut + 2 ^ 6);
      let s := { coreIs 70 { arr := { run := some ⟨w, 0, 0, 0⟩ } } with mem := Mem.write [] (sramAddr 70 0x1000) [0x80#8] };
      fillDue s 70 ∧ (MRec.of w).escaped
        ∧ escapesOk (MRec.of w) (storedTile s 70 (MRec.of w) (0, 0)).1 [] [] = false
        ∧ out (.tileSetFill 70 []) s (fun t => (t.core 70).arr.halt ∧ (t.core 70).mxFault.isSome)) := by
  decide +kernel

theorem witness_TileSetsAndPasses_swap :
    let s := arrays { run := some ⟨mxRec mxOut, 0, 1, 0⟩, shadow := some shadowSet };
    s.settled ∧ s.awake 70 ∧ s.bankFinds = [] ∧ swapDue s 70 ∧ (MRec.of (mxRec mxOut)).place 0 = (0, 0, 0)
      ∧ out (.swap 70 []) s (fun t => ((t.core 70).arr.drain.map fun d => (nth {} (nth [] d.tally 0) 0).v) = some 15
        ∧ (t.core 70).arr.broadcast = 1 ∧ (t.core 70).arr.run = none ∧ (t.core 70).arr.fin.isSome
        ∧ t = { s with cores := t.cores, slu := t.slu, evt := { s.evt with sramSeep := t.evt.sramSeep } }) := by
  decide +kernel

/-- The same record before its drain: the tally holds 15 in column 0. -/
def finished : State :=
  arrays { fin := some ⟨mxRec mxOut, 0, 1, 1⟩
           drain := some ⟨mxRec mxOut, 0, 0, [{ v := 15 } :: List.replicate 63 {}]⟩ }

theorem witness_BlocksDrain_drain : finished.settled ∧ finished.awake 70 ∧ finished.bankFinds = []
    ∧ drainDue finished 70 ∧ overflowed (MRec.of (mxRec mxOut)) [{ v := 15 } :: List.replicate 63 {}] = []
    ∧ out (.drain 70 []) finished (fun t => leNat (t.mem.read (sramAddr 70 0x2000) 4) = 0x41700000
      ∧ (t.core 70).arr.drain = none ∧ t.pages = finished.pages
      ∧ t = { finished with cores := t.cores, slu := t.slu, evt := t.evt, pages := t.pages, mem := t.mem, resv := t.resv }) := by
  decide +kernel

theorem witness_BlocksDrain_side :
    (let w := mxRec (mxOut + 2 ^ 6 + 2 ^ 14);
      let s := arrays { drain := some ⟨w, 0, 0, [List.replicate 64 {}]⟩, pend := [⟨w, 0, 0, [[(0, 0x3F800000)]]⟩] };
      s.settled ∧ s.awake 70 ∧ s.bankFinds = [] ∧ sideWork (s.core 70).arr = [⟨w, 0, 0, [[(0, 0x3F800000)]]⟩]
        ∧ sidePlace (MRec.of w) 0 0 0 = (0, 0)
        ∧ out (.sideListWork 70 []) s (fun t => (t.core 70).arr.pend = [] ∧ (t.core 70).arr.cols = [0]
          ∧ nth 0 (nth [] (t.core 70).arr.sums 0) 0 = 0x40400000
          ∧ t = { s with cores := t.cores, slu := t.slu, evt := { s.evt with sramSeep := t.evt.sramSeep } }))
    ∧ (let s := { coreIs 70 { sid := { run := some (mxRec mxSide) } } with
        mem := Mem.write (Mem.write [] (sramAddr 70 0) [3#8]) (sramAddr 70 0x1000) [5#8] };
      s.settled ∧ s.awake 70 ∧ s.bankFinds = [] ∧ (s.core 70).sid.written = false ∧ s.gov.mxDuty ≠ 0
        ∧ out (.sideRecord 70 []) s (fun t => (t.core 70).sid.written
          ∧ leNat (t.mem.read (sramAddr 70 0x2000) 4) = 0x41700000
          ∧ t = { s with cores := t.cores, slu := t.slu, evt := t.evt, mem := t.mem, resv := t.resv })) := by
  decide +kernel

theorem witness_MatrixRecordEnds_complete :
    (let s := arrays { fin := some ⟨mxRec mxOut, 0, 1, 1⟩ };
      s.settled ∧ s.awake 70 ∧ (s.page (.core 70)).pend = [] ∧ s.bankFinds = [] ∧ mxCompleteDue s 70 false
        ∧ (MRec.of (mxRec mxOut)).sigEn = false
        ∧ out (.matrixRecordComplete 70 false) s (fun t => (t.core 70).mx.done = 1 ∧ (t.core 70).arr.fin = none
          ∧ t = { s with cores := t.cores, slu := t.slu }))
    ∧ (let w := mxRec (mxSide + 2 ^ 16) 0 0 (ownWord 0x208 + 7 * 2 ^ 52);
      let s := coreIs 70 { sid := { run := some w, written := true } };
      mxCompleteDue s 70 true ∧ (MRec.of w).sigEn = true ∧ signalWord s 70 (MRec.of w).sigAddr (MRec.of w).sigAdd 0x208
        ∧ out (.matrixRecordComplete 70 true) s (fun t => leNat (t.mem.read (sramAddr 70 0x208) 8) = 7
          ∧ (t.core 70).sid.run = none
          ∧ t = { s with cores := t.cores, slu := t.slu, mem := t.mem, resv := t.resv })) := by
  unfold signalWord unwatched; decide +kernel

theorem witness_MatrixRecordEnds_timeout :
    let w := mxRec (mxOut + 2 ^ 15) (ownWord 0x208) 1;
    let s := { (coreIs 70 { arr := { staged := some w }, sid := { staged := some w } }) with now := 10000000 };
    s.settled ∧ s.live ∧ mxWaitOverdue s 70 false ∧ mxWaitOverdue s 70 true
      ∧ out (.syncWaitTimeout 70 .arrays) s (fun t => (t.core 70).arr.late
        ∧ (t.evt.inputs.flatMap id).map (·.code) = [evSyncWaitTimeout]
        ∧ t = { s with cores := t.cores, slu := t.slu, evt := t.evt })
      ∧ out (.syncWaitTimeout 70 .side) s (fun t => (t.core 70).sid.late ∧ (t.core 70).arr.late = false) := by
  decide +kernel

/-- A chain record with tag 9, one stage that adds immediate slot 0, which is 1.0, and rows of 4 FP32 elements. -/
def chainRec (rows : Nat) (streams : List Nat) (w0 stage signal wait thr : Nat := 0) : List Word :=
  let all := (upto 5).foldl (fun n i => n + nth 0 streams i * 2 ^ (48 * i)) 0
  [word (2 + rows * 2 ^ 16 + 4 * 2 ^ 36 + w0), 9, word (if stage = 0 then 2 + 8 * 2 ^ 8 else stage), 0]
    ++ ((upto 4).map fun i => word (all / 2 ^ (64 * i) % 2 ^ 64))
    ++ [0x3F800000, 0, 0, 0, word wait, word thr, word signal, 0]

/-- An FP32 stream of rows 16 bytes apart: in SRAM, or a coil. -/
def sramStream (base : Nat) : Nat := 1 + base * 2 ^ 14 + 4 * 2 ^ 32
def coilStream (n : Nat) : Nat := 3 + n * 2 ^ 14

/-- A core with coil 15 configured in two entries at entry 254: the producer and the consumer given. -/
def coiled (prod cons auto : Nat) (v : Core) : State :=
  (coreIs 70 v).setReg (.core 70) 0x6E0 (1 + (if prod + cons = 0 then 0 else 2) + 16 * prod + 256 * cons + 254 * 2 ^ 12
    + 2 ^ 20 + auto * 2 ^ 23)

/-- A request of core 70's steward for CORE_COIL_DATA_15. -/
def coilReq (k : Cont) : Req := ⟨.steward 70, pageBase (.core 70) + (0x510 + 0x20 * 15), k, 0xFFF⟩

/-- A passage that counts nothing; and a fault of the SFU at a slot. -/
def passesClean : Passage → Bool
  | .pass _ n => n == 0
  | _ => false
def sfuFaultAt (slot code : Nat) : Passage → Bool
  | .sfu _ _ i e => i == slot && e == code
  | _ => false

/-! ## Vector engine, SFU and coils -/

theorem witness_ChainRecords_take :
    (let w := chainRec 1 [sramStream 0, 0, 0, sramStream 0x100];
      let s := coreIs 70 { vx := { coil := [w] } };
      s.settled ∧ s.awake 70 ∧ vxTakeDue s 70 ∧ vxFormatBad s 70 w (heldAhead (s.core 70).vec) = false
        ∧ (VRec.of w).waitEn = false
        ∧ out (.chainRecordTake 70) s (fun t => (t.core 70).vec.staged = some w ∧ (t.core 70).vx.coil = []
          ∧ t = { s with cores := t.cores, slu := t.slu }))
    ∧ (let w := chainRec 0 [sramStream 0, 0, 0, sramStream 0x100];
      let s := coreIs 70 { vx := { coil := [w] } };
      vxTakeDue s 70 ∧ vxFormatBad s 70 w (heldAhead (s.core 70).vec) = true
        ∧ out (.chainRecordTake 70) s (fun t => (t.core 70).vx.done = 1 ∧ (t.core 70).vec = {}
          ∧ (t.evt.inputs.flatMap id).map (·.code) = [evVectorFormat]
          ∧ t = { s with cores := t.cores, slu := t.slu, evt := t.evt })) := by decide +kernel

theorem witness_ChainRecords_start :
    let w := chainRec 4 [coilStream 15, 0, 0, sramStream 0x100];
    let s := coiled 0 0 0 { vec := { staged := some w }, coils := [(15, { read := 1, write := 2 })] };
    s.settled ∧ s.awake 70 ∧ vxStartDue s 70 ∧ (s.page (.core 70)).pend = [] ∧ vxWait s 70 (VRec.of w) = .holds
      ∧ carryBad (VRec.of w) (carryKey (s.core 70).vec.carry) = false ∧ coilStreamsBad s 70 (VRec.of w) = false
      ∧ coilsRead (VRec.of w) = [15] ∧ (s.core 70).vec.fin = none ∧ vxWaitOverdue s 70 = false
      ∧ out (.chainRecordStart 70) s (fun t => (t.coil 70 15).belay = 1
        ∧ (t.core 70).vec.run = some { words := w, began := [(15, 1)] } ∧ t.evt = s.evt
        ∧ t = { s with cores := t.cores, slu := t.slu }) := by decide +kernel

theorem witness_ChainRecords_start_bad :
    (let w := chainRec 4 [coilStream 15, 0, 0, sramStream 0x100];
      let s := coreIs 70 { vec := { staged := some w } };
      s.settled ∧ s.awake 70 ∧ vxStartDue s 70 ∧ vxWait s 70 (VRec.of w) = .holds ∧ coilStreamsBad s 70 (VRec.of w) = true
        ∧ vxWaitOverdue s 70 = false
        ∧ out (.chainRecordStart 70) s (fun t => t = { s with cores := t.cores, slu := t.slu, evt := t.evt }
          ∧ t.core 70 = { s.core 70 with vx := { done := 1 }, vec := {} }
          ∧ t.evt = (vxEvent 70 evVectorFormat 9 0 s).evt))
    ∧ (let w := chainRec 1 [sramStream 0, 0, 0, sramStream 0x100] 16 0 0 (0xFFF * 2 ^ 40 + 0xCC00000000) 1;
      let s := (coreIs 70 { vec := { staged := some w } }).setStack 0 { state := 2 };
      vxStartDue s 70 ∧ vxWait s 70 (VRec.of w) = .failed evAddrUnmapped
        ∧ out (.chainRecordStart 70) s (fun t => (t.core 70).vec.halt ∧ (t.core 70).vec.staged = none ∧ t.mem = s.mem
          ∧ (t.core 70).vec.fault = some (vxFaultWord 0 0 0 9))) := by decide +kernel

theorem witness_ChainRecords_complete :
    (let w := chainRec 4 [coilStream 15, 0, 0, sramStream 0x100];
      let s := coiled 0 0 0 { vec := { fin := some { words := w } }, coils := [(15, { read := 1, write := 2 })] };
      s.settled ∧ s.awake 70 ∧ (s.page (.core 70)).pend = [] ∧ s.bankFinds = [] ∧ (VRec.of w).sigEn = false
        ∧ (s.core 70).vec.run = none
        ∧ out (.chainRecordComplete 70) s (fun t => (t.core 70).vx.done = 1 ∧ (t.coil 70 15).release = 1
          ∧ t = { s with cores := t.cores, slu := t.slu })
        ∧ (let y : VRun := { words := w, next := [(15, 3)] };
          let u := coiled 0 0 0 { vec := { fin := some y }, coils := [(15, { release := 1, belay := 1, read := 0, write := 0 })] };
          alookup 15 y.next = some 3
            ∧ ptrDiff (coilSize u 70 15) 3 (u.coil 70 15).release
              ≤ ptrDiff (coilSize u 70 15) (u.coil 70 15).read (u.coil 70 15).release
            ∧ out (.chainRecordComplete 70) u (fun t => (t.coil 70 15).release = 3 ∧ (t.coil 70 15).belay = 3)))
    ∧ (let w := chainRec 1 [sramStream 0, 0, 0, sramStream 0x100] 32 0 (ownWord 0x208 + 7 * 2 ^ 52);
      let s := coreIs 70 { vec := { fin := some { words := w } } };
      (VRec.of w).sigEn = true ∧ signalWord s 70 (VRec.of w).sigAddr (VRec.of w).sigAdd 0x208
        ∧ out (.chainRecordComplete 70) s (fun t => leNat (t.mem.read (sramAddr 70 0x208) 8) = 7
          ∧ (t.core 70).vx.done = 1)) := by
  unfold signalWord unwatched; decide +kernel

theorem witness_ChainRows :
    (let w := chainRec 2 [sramStream 0, 0, 0, sramStream 0x100];
      let s := { coreIs 70 { vec := { run := some { words := w } } } with
        mem := Mem.write [] (sramAddr 70 0) (leBytes 4 0x40000000) };
      s.settled ∧ s.awake 70 ∧ s.bankFinds = [] ∧ vxRowDue s 70 false ∧ backlog { words := w } = false
        ∧ passesClean (passage 70 { words := w } none s).1
        ∧ 0 + groupSize (VRec.of w) 0 ≠ (VRec.of w).rows
        ∧ out (.chainRow 70 [] none) s (fun t => leNat (t.mem.read (sramAddr 70 0x100) 4) = 0x40400000
          ∧ leNat (t.mem.read (sramAddr 70 0x104) 4) = 0x3F800000 ∧ (t.core 70).vec.run.map (·.row) = some 1
          ∧ t = { s with cores := t.cores, slu := t.slu, evt := t.evt, mem := t.mem, resv := t.resv }))
    ∧ (let w := chainRec 1 [coilStream 15, 0, 0, sramStream 0x100];
      let s := coiled 0 0 0 { vec := { run := some { words := w } } };
      vxRowDue s 70 false ∧ (passage 70 { words := w } none s).1 = .short
        ∧ out (.chainRow 70 [] none) s (fun t => (t.core 70).vec.run = some { words := w, hold := some 1000000 }
          ∧ t = { s with cores := t.cores, slu := t.slu })
        ∧ (let x : VRun := { words := w, hold := some 5 };
          let u := coiled 0 0 0 { vec := { run := some x }, coils := [(15, { write := 1 })], cmem := [(64 * 254, 1#8)] };
          vxRowDue u 70 true ∧ 0 + groupSize (VRec.of w) 0 = (VRec.of w).rows
            ∧ out (.coilStreamResume 70 [] none) u (fun t => (t.core 70).vec.run = none ∧ (t.core 70).vec.fin.isSome)))
    ∧ (let w := chainRec 1 [sramStream 0, 0, 0, coilStream 15];
      let x : VRun := { words := w, row := 1, out := [(15, List.replicate 128 1#8)], hold := some 5 };
      let s := coiled 0 0 0 { vec := { run := some x }, coils := [(15, { write := 1 })] };
      s.settled ∧ s.awake 70 ∧ vxRowDue s 70 true ∧ backlog x ∧ x.row = (VRec.of w).rows ∧ free s 70 15 = 1
        ∧ out (.coilStreamResume 70 [] none) s (fun t => (t.coil 70 15).write = 2
          ∧ (t.core 70).vec.run = some { x with out := [(15, List.replicate 64 1#8)] })
        ∧ (let u := coiled 0 0 0 { vec := { run := some { x with out := [(15, List.replicate 64 1#8)] } } };
          out (.coilStreamResume 70 [] none) u (fun t => (t.coil 70 15).write = 1 ∧ (t.core 70).vec.run = none
            ∧ (t.core 70).vec.fin = some { words := w, row := 1 } ∧ (t.core 70).cmem.get (64 * 254 + 63) = 1)))
    ∧ (let w := chainRec 1 [sramStream 0, 0, 0, sramStream 0x100] 0 (5 + 4 * 2 ^ 12);
      let s := coreIs 70 { vec := { run := some { words := w } } };
      sfuFaultAt 0 evSfuSlotEmpty (passage 70 { words := w } none s).1
        ∧ out (.chainRow 70 [] none) s (fun t => (t.core 70).vec.halt ∧ (t.core 70).vec.fault.isSome)) := by
  decide +kernel

/-- The checksum of a program block of zeros. -/
def zeroProgram : Word := word (crc32c (List.replicate 96 0#8) * 2 ^ 32 + 2 ^ 24 + 3 * 2 ^ 18)

theorem witness_Tables :
    (ready.settled ∧ ready.live ∧ mayWrite ready tmp (.core 70) 0x4A0 7 ∧ (ready.core 70).sfu.queue.length < 8
      ∧ out (.coreSfuLoad tmp 70 7) ready (fun t => (t.core 70).sfu.queue = [7]))
    ∧ (let s := coreIs 70 { sfu := { queue := List.replicate 8 7 } };
      8 ≤ (s.core 70).sfu.queue.length
        ∧ out (.coreSfuLoad tmp 70 7) s (fun t => (t.core 70).sfu.errCause = 4 ∧ (t.core 70).sfu.queue.length = 8
          ∧ t = { s with cores := t.cores, slu := t.slu, pages := t.pages, evt := t.evt }))
    ∧ (let s := coreIs 70 { sfu := { queue := [zeroProgram] } };
      s.awake 70 ∧ vxBoundary s 70 ∧ loadKind zeroProgram.toNat = 1 ∧ bits zeroProgram.toNat 17 0 = 0
        ∧ programCause (bits zeroProgram.toNat 63 32) (s.mem.read (sramAddr 70 0) 96) = 0
        ∧ out (.sfuLoadApply 70 []) s (fun t => alookup 3 (t.core 70).sfu.progs = some (List.replicate 24 0)))
    ∧ (let s := coreIs 70 { sfu := { queue := [zeroProgram + 2 ^ 32] } };
      programCause (bits (zeroProgram + 2 ^ 32).toNat 63 32) (s.mem.read (sramAddr 70 0) 96) ≠ 0
        ∧ out (.sfuLoadApply 70 []) s (fun t => (t.core 70).sfu.errCause = 1 ∧ (t.core 70).sfu.progs = [])) := by
  unfold mayWrite mayStore; decide +kernel

theorem witness_Coils_store :
    (let s := coiled 1 0 0 { coils := [(15, { wrOff := 7 })] };
      s.settled ∧ s.live ∧ coilLive s 70 15 ∧ coilProd s 70 15 = 1 ∧ 0 < free s 70 15
        ∧ barrier s (coilReq .none) (.store (leBytes 8 9)) = .clear
        ∧ out (.coilDataStore (coilReq .none) 15 9) s (fun t => (t.coil 70 15).write = 1 ∧ (t.coil 70 15).wrOff = 0
          ∧ (t.core 70).cmem.get (64 * 254 + 56) = 9 ∧ t = { s with cores := t.cores, slu := t.slu }))
    ∧ (let s := coiled 1 0 0 { coils := [(15, { write := 2 })] };
      free s 70 15 = 0 ∧ s.bollardTimeout 70 ≠ 0 ∧ barrier s (coilReq .none) (.store (leBytes 8 9)) = .clear
        ∧ out (.coilDataStore (coilReq .none) 15 9) s (fun t => (t.core 70).coilWait.isSome
          ∧ t = { s with cores := t.cores, slu := t.slu })) := by decide +kernel

theorem witness_Coils_load :
    let s := coiled 0 1 1 { coils := [(15, { write := 1, rdOff := 7 })], cmem := [(64 * 254 + 56, 9#8)]
                            stw := { st := .run, wait := .access 4 0 5 } };
    s.settled ∧ s.live ∧ coilLive s 70 15 ∧ coilCons s 70 15 = 1 ∧ 0 < readable s 70 15
      ∧ (s.core 70).stw.wait = .access 4 0 5 ∧ (s.core 70).stw.stopping = false ∧ coilAutoRel s 70 15 = true
      ∧ barrier s (coilReq (.toReg 70 5 8 false)) (.load 8 false) = .clear
      ∧ out (.coilDataLoad (coilReq (.toReg 70 5 8 false)) 15) s (fun t => (t.core 70).stw.get 5 = 9
        ∧ (t.core 70).stw.pc = 4 ∧ (t.coil 70 15).release = 1 ∧ (t.coil 70 15).read = 1
        ∧ t = { s with cores := t.cores, slu := t.slu }) := by decide +kernel

theorem witness_Coils_resume :
    (let s := coiled 1 0 0 { coilWait := some ⟨15, some 9, 900000, coilReq .none, some 900001⟩ };
      s.settled ∧ s.awake 70 ∧ (coilReq .none).cont = .none ∧ coilReady s 70 15 true
        ∧ coilInTime s 70 ⟨15, some 9, 900000, coilReq .none, some 900001⟩
        ∧ out (.coilAccessResume 70) s (fun t => (t.core 70).coilWait = none ∧ (t.core 70).cmem.get (64 * 254) = 9))
    ∧ (let s := coiled 1 0 0 { coilWait := some ⟨15, some 9, 900000, coilReq .none, none⟩, coils := [(15, { write := 2 })] };
      900000 + s.bollardTimeout 70 ≤ s.now ∧ coilInTime s 70 ⟨15, some 9, 900000, coilReq .none, none⟩ = false
        ∧ out (.coilTimeout 70) s (fun t => (t.core 70).coilWait = none ∧ (t.core 70).cmem = []
          ∧ (t.evt.inputs.flatMap id).map (·.code) = [evCoilTimeout])) := by decide +kernel

theorem witness_Coils_commands :
    (let s := coiled 0 1 0 { coils := [(15, { read := 1, write := 2, rdOff := 3 })] };
      s.settled ∧ s.live ∧ mayWrite s (.steward 70) (.core 70) (0x518 + 0x20 * 15) 1 ∧ consumerMay s 70 15
        ∧ out (.belay (.steward 70) 70 15) s (fun t => (t.coil 70 15).belay = 1)
        ∧ out (.rewind (.steward 70) 70 15) s (fun t => (t.coil 70 15).read = 0 ∧ (t.coil 70 15).rdOff = 0)
        ∧ out (.release (.steward 70) 70 15) s (fun t => (t.coil 70 15).release = 1)
        ∧ out (.commit (.steward 70) 70 15) s (fun t => (t.core 70).coils = (s.core 70).coils))
    ∧ (let s := coiled 1 0 0 { coils := [(15, { wrOff := 3 })], cmem := [(64 * 254 + 24, 9#8)] };
      coilLive s 70 15 ∧ coilProd s 70 15 = 1 ∧ (s.coil 70 15).wrOff ≠ 0
        ∧ out (.commit (.steward 70) 70 15) s (fun t => (t.coil 70 15).write = 1 ∧ (t.core 70).cmem = [])) := by
  unfold mayWrite mayStore; decide +kernel

theorem witness_Coils_config :
    (let d : Pend := ⟨0xFFF333, 1 + 254 * 2 ^ 12 + 2 ^ 20, false⟩;
      let s := (coreIs 70 { coils := [(15, { read := 1 })] }).setPage (.core 70) { pend := [(0x500 + 0x20 * 15, d)] };
      let u := s.setReg (.core 70) (0x500 + 0x20 * 15) (pendValue s (.core 70) (0x500 + 0x20 * 15) d);
      s.settled ∧ s.awake 70 ∧ vxBoundary s 70 ∧ (s.page (.core 70)).hold = false ∧ (s.core 70).coilWait = none
        ∧ ¬ (coilEn u 70 15 && coilBad u 70 15)
        ∧ out (.coilCfgApply 70) s (fun t => t.coil 70 15 = {} ∧ coilCfg t 70 15 = 1 + 254 * 2 ^ 12 + 2 ^ 20))
    ∧ (let d : Pend := ⟨0xFFF333, 1 + 254 * 2 ^ 12 + 2 * 2 ^ 20, false⟩;
      let s := ready.setPage (.core 70) { pend := [(0x500 + 0x20 * 15, d)] };
      let u := s.setReg (.core 70) (0x500 + 0x20 * 15) (pendValue s (.core 70) (0x500 + 0x20 * 15) d);
      (coilEn u 70 15 && coilBad u 70 15)
        ∧ out (.coilCfgApply 70) s (fun t => (t.coil 70 15).cfgErr
          ∧ (t.evt.inputs.flatMap id).map (·.code) = [evCoilCfgBad])) := by decide +kernel

/-- A strand with tag 9: nb blocks of one row of 4 FP32 elements from offset 0x100 to 0x1000, with its shape block. -/
def strandRec (nb w0 : Nat) (period wait thr signal : Nat := 0) : List Word :=
  [word (3 + 9 * 2 ^ 48 + w0), word (own 0x100), word (own 0x1000), word (0x2000 + 0x3000 * 2 ^ 18 + nb * 2 ^ 36), word period,
    word wait, word thr, word signal]
def strandShape (items rel : Nat := 0) : List Word :=
  [word (4 + 2 ^ 32), word (1 + 2 ^ 32), 16, 0, 0, 16, 0, 0, 16, 16, word items, word rel, 0, 0, 0, 0]

/-- A started context of the strand. -/
def running (nb w0 : Nat) (period signal rel : Nat := 0) : Ctx :=
  { started := true, state := 2, record := strandRec nb w0 period 0 0 signal, shape := strandShape 4 rel, tag := 9 }

/-- Core 70 with context 7 as given. -/
def ctxIs (k : Ctx) : State := coreIs 70 { ctx := [(7, k)] }

/-- A release word that reads as v. -/
def reads (x : Option (Except Nat Int)) (v : Int) : Bool :=
  match x with
  | some (.ok y) => y == v
  | _ => false

/-! ## Strand engine and presence -/

/-- Contexts 0 to 6 are taken, the record stands in the coil and its shape block in SRAM. -/
def strandReady (w : List Word) : State :=
  { coreIs 70 { sx := { coil := [w] }, ctx := (upto 7).map fun n => (n, { state := 1 }) } with
    mem := Mem.write [] (sramAddr 70 0x2000) ((strandShape 0 0).flatMap fun x => leBytes 8 x.toNat) }

theorem witness_StrandBegins_take :
    (let w := strandRec 1 0;
      let s := strandReady w;
      s.settled ∧ s.awake 70 ∧ (s.page (.core 70)).pend = [] ∧ freeContext s 70 = some 7 ∧ wordBits w 3 17 0 = 0x2000
        ∧ (chunks 7 16 (s.mem.read (sramAddr 70 0x2000) 128)).map (fun b => word (leNat b)) = strandShape
        ∧ strandCheck s 70 (SRec.of w strandShape) w strandShape = none
        ∧ out (.strandRecordTake 70 []) s (fun t => t.ctx 70 7 = { state := 1, record := w, shape := strandShape, tag := 9, t0 := 1000000 }
          ∧ (t.core 70).sx.coil = [] ∧ t = { s with cores := t.cores, slu := t.slu }))
    ∧ (let w := strandRec 0 0;
      let s := strandReady w;
      strandCheck s 70 (SRec.of w strandShape) w strandShape = some evStrandFormat
        ∧ out (.strandRecordTake 70 []) s (fun t => t.ctx 70 7 = { tag := 9 } ∧ (t.core 70).sx.done = 1
          ∧ (t.evt.inputs.flatMap id).map (·.code) = [evStrandFormat]
          ∧ t = { s with cores := t.cores, slu := t.slu, evt := t.evt })) := by decide +kernel

theorem witness_StrandBegins_start :
    let k : Ctx := { state := 1, record := strandRec 2 (2 ^ 7 + 2 ^ 10) 50 (ownWord 0x208) 3, shape := strandShape 0 (ownWord 0x210), tag := 9 };
    let s := { ctxIs k with mem := Mem.write (Mem.write [] (sramAddr 70 0x208) [3#8]) (sramAddr 70 0x210) [11#8] };
    s.settled ∧ s.awake 70 ∧ (s.ctx 70 7).srec.waitEn = true ∧ (s.ctx 70 7).srec.relEn = true
      ∧ waitState 70 (ctxWaiter 7) ((s.ctx 70 7).who 70 7) (s.ctx 70 7).srec.waitAddr (s.ctx 70 7).srec.waitValue s = .holds
      ∧ reads (engineWord ((s.ctx 70 7).who 70 7) (s.ctx 70 7).srec.relAddr s) 11
      ∧ out (.strandStart 70 7) s (fun t => (t.ctx 70 7).state = 2 ∧ (t.ctx 70 7).r0 = 11 ∧ (t.ctx 70 7).tref = 1000050
        ∧ t = { s with cores := t.cores, slu := t.slu }) := by decide +kernel

theorem witness_StrandRequests :
    (let s := { ctxIs (running 1 0) with mem := Mem.write [] (sramAddr 70 0x104) (leBytes 4 0x40000000) };
      s.settled ∧ s.awake 70 ∧ s.bankFinds = [] ∧ issueOrder s 70 = [7]
        ∧ (s.ctx 70 7).srec.braid = 0 ∧ (s.ctx 70 7).srec.comp = 0 ∧ (s.ctx 70 7).srec.op = 0 ∧ (s.ctx 70 7).srec.relEn = false
        ∧ srcPlace s (s.ctx 70 7).srec 0 0 = ⟨none, sramAddr 70 0x100⟩
          ∧ dstPlace s (s.ctx 70 7).srec 0 0 = ⟨none, sramAddr 70 0x1000⟩
        ∧ requestLen (s.ctx 70 7).srec 0 (sramAddr 70 0x100) = 4 ∧ (s.ctx 70 7).srec.srcFmt.width = 32
        ∧ 4 ≤ inLine (s.ctx 70 7).srec.dstFmt (sramAddr 70 0x1000) ∧ isMirrored s (sramAddr 70 0x1000) 16 = false
        ∧ s.owes (· == .strand 70 7 0) = false
        ∧ out (.strandIssue 70 []) s (fun t => leNat (t.mem.read (sramAddr 70 0x1000) 16) = 0x40000000 * 2 ^ 32
          ∧ t.ctx 70 7 = { s.ctx 70 7 with pos := 4, nextJob := 1, stallAt := 1000000, pausedAt := 1000000 }
            ∧ (t.core 70).ctxPtr = 0
          ∧ t = { s with cores := t.cores, slu := t.slu, evt := t.evt, mem := t.mem, resv := t.resv }))
    ∧ (let s := { ctxIs (running 1 16) with mem := Mem.write [] (sramAddr 70 0x3000) [4#8] };
      issueOrder s 70 = [7] ∧ (s.ctx 70 7).srec.op = 1 ∧ (s.ctx 70 7).srec.zero = false
        ∧ ¬ (0 ≤ sext (leNat (s.mem.read (sramAddr 70 (indexOff (s.ctx 70 7).srec 0)) 4)) 32
          ∧ sext (leNat (s.mem.read (sramAddr 70 (indexOff (s.ctx 70 7).srec 0)) 4)) 32 < (s.ctx 70 7).srec.items)
        ∧ out (.strandIssue 70 []) s (fun t => (t.ctx 70 7).state = 4 ∧ (t.ctx 70 7).cause = evStrandIndex
          ∧ t = { s with cores := t.cores, slu := t.slu, evt := t.evt }))
    ∧ (let s := ctxIs (running 1 (2 ^ 20));
      s.settled ∧ s.awake 70 ∧ (s.core 70).braid = none ∧ braidWaiters s 70 = [7]
        ∧ out (.braidTile 70) s (fun t => (t.core 70).braid = some 7 ∧ (t.ctx 70 7).tile.isSome)) := by decide +kernel

theorem witness_StrandRequests_indexed :
    (let m := (Mem.write [] (sramAddr 70 0x3000) [2#8]).write (sramAddr 70 0x124) (leBytes 4 0x40000000);
      let s := { ctxIs (running 1 16) with mem := m };
      issueOrder s 70 = [7] ∧ (s.ctx 70 7).srec.op = 1 ∧ indexOff (s.ctx 70 7).srec 0 = 0x3000
        ∧ srcPlace s (s.ctx 70 7).srec 0 2 = ⟨none, sramAddr 70 0x120⟩
        ∧ out (.strandIssue 70 []) s (fun t => leNat (t.mem.read (sramAddr 70 0x1000) 16) = 0x40000000 * 2 ^ 32
          ∧ t.ctx 70 7 = { s.ctx 70 7 with pos := 4, nextJob := 1, stallAt := 1000000, pausedAt := 1000000 }))
    ∧ (let m := ((Mem.write [] (sramAddr 70 0x3000) [2#8]).write (sramAddr 70 0x100) (leBytes 4 0x40000000)).write
        (sramAddr 70 0x1020) (leBytes 4 0x3F800000);
      let s := { ctxIs (running 1 48) with mem := m };
      issueOrder s 70 = [7] ∧ (s.ctx 70 7).srec.op = 3 ∧ dstPlace s (s.ctx 70 7).srec 0 2 = ⟨none, sramAddr 70 0x1020⟩
        ∧ out (.strandIssue 70 []) s (fun t => leNat (t.mem.read (sramAddr 70 0x1020) 16) = 0x40400000
          ∧ t.ctx 70 7 = { s.ctx 70 7 with pos := 4, nextJob := 1, stallAt := 1000000, pausedAt := 1000000 }))
    ∧ (let m := (Mem.write [] (sramAddr 70 0x3000) [4#8]).write (sramAddr 70 0x1000) (leBytes 4 7);
      let s := { ctxIs (running 1 (32 + 2 ^ 32)) with mem := m };
      issueOrder s 70 = [7] ∧ (s.ctx 70 7).srec.op = 2 ∧ (s.ctx 70 7).srec.zero
        ∧ out (.strandIssue 70 []) s (fun t => t.ctx 70 7 = { s.ctx 70 7 with pos := 4 }
          ∧ t = { s with cores := t.cores, slu := t.slu })
        ∧ (let u := s.setCtx 70 7 (running 1 (16 + 2 ^ 32));
          (u.ctx 70 7).srec.op = 1 ∧ (u.ctx 70 7).srec.zero
            ∧ out (.strandIssue 70 []) u (fun t => leNat (t.mem.read (sramAddr 70 0x1000) 16) = 0
              ∧ t.ctx 70 7 = { u.ctx 70 7 with pos := 4, nextJob := 1, stallAt := 1000000, pausedAt := 1000000 }))) := by
  decide +kernel

theorem witness_StrandEnds_blocks :
    (let s := ctxIs { running 1 0 50 with pos := 4, tref := 1000001 };
      s.settled ∧ s.awake 70 ∧ blockLanded s 70 7 ∧ (s.ctx 70 7).srec.sigEn = false ∧ (s.now : Int) < (s.ctx 70 7).tdry
        ∧ out (.blockLands 70 7) s (fun t => (t.ctx 70 7).landed = 1 ∧ t.evt = s.evt))
    ∧ (let s := ctxIs { running 1 0 50 with pos := 4, tref := 1000000 };
      blockLanded s 70 7 ∧ (s.ctx 70 7).srec.period ≠ 0 ∧ (s.ctx 70 7).tdry ≤ (s.now : Int) ∧ (s.ctx 70 7).lateBlock = false
        ∧ out (.blockLands 70 7) s (fun t => (t.core 70).late = 1 ∧ (t.ctx 70 7).lateBlock
          ∧ (t.evt.inputs.flatMap id).map (·.code) = [evStrandLate]))
    ∧ (let s := { ctxIs { running 4 (2 ^ 10) 50 0 (ownWord 0x210) with state := 3, pos := 8, r0 := 1 } with
        mem := Mem.write [] (sramAddr 70 0x210) [3#8] };
      reads (engineWord ((s.ctx 70 7).who 70 7) (s.ctx 70 7).srec.relAddr s) 3 ∧ (s.ctx 70 7).started = true
        ∧ (3 : Int) - (s.ctx 70 7).r0 ≥ (((s.ctx 70 7).pos / (s.ctx 70 7).srec.q + 1 : Nat) : Int) - (s.ctx 70 7).srec.slots
        ∧ out (.releaseObserved 70 7) s (fun t => (t.ctx 70 7).state = 2 ∧ (t.ctx 70 7).released = 2)
        ∧ out (.releaseObserved 70 7) (s.setCtx 70 7 { s.ctx 70 7 with state := 2 }) (fun t => (t.ctx 70 7).released = 2
          ∧ (t.ctx 70 7).tref = 1000000)) := by decide +kernel

theorem witness_StrandEnds_complete :
    (let s := ctxIs { running 1 0 with pos := 4, landed := 1 };
      s.settled ∧ s.live ∧ 7 < 8 ∧ (s.page (.core 70)).pend = [] ∧ s.bankFinds = [] ∧ s.awake 70 ∧ strandFinished s 70 7
        ∧ (s.ctx 70 7).srec.sigEn = false
        ∧ out (.strandComplete 70 7) s (fun t => t.ctx 70 7 = { tag := 9 } ∧ (t.core 70).sx.done = 1
          ∧ t = { s with cores := t.cores, slu := t.slu }))
    ∧ (let s := ctxIs { running 1 (2 ^ 8) 0 (ownWord 0x208 + 7 * 2 ^ 52) with pos := 4, landed := 1 };
      strandFinished s 70 7 ∧ (s.ctx 70 7).srec.sigEn = true ∧ (s.ctx 70 7).srec.sigEach = false ∧ s.waits = []
        ∧ signalWord s 70 (s.ctx 70 7).srec.sigAddr (s.ctx 70 7).srec.sigAdd 0x208
        ∧ out (.strandComplete 70 7) s (fun t => leNat (t.mem.read (sramAddr 70 0x208) 8) = 7 ∧ (t.core 70).sx.done = 1))
    ∧ (let s := ctxIs { running 1 0 with pos := 2 };
      mayStore s (.steward 70) (pageBase (.core 70) + (0x1800 + 0x120 + 0x40 * 7)) (leBytes 8 2) ∧ (s.ctx 70 7).state ≠ 0
        ∧ out (.strandCancel (.steward 70) 70 7) s (fun t => t.ctx 70 7 = { tag := 9 } ∧ (t.core 70).sx.done = 1)) := by
  unfold signalWord unwatched mayStore; decide +kernel

theorem witness_StrandHalts :
    (let s := ctxIs { running 1 0 with state := 4, cause := evStrandIndex, pos := 2, pausedAt := 999000, stallAt := 10 };
      s.settled ∧ s.live ∧ mayStore s (.steward 70) (pageBase (.core 70) + (0x1800 + 0x120 + 0x40 * 7)) (leBytes 8 1)
        ∧ (s.ctx 70 7).started = true ∧ (s.ctx 70 7).srec.relEn = false
        ∧ out (.strandResume (.steward 70) 70 7) s (fun t => (t.ctx 70 7).state = 2 ∧ (t.ctx 70 7).pos = 2
          ∧ (t.ctx 70 7).stallAt = 1010 ∧ t = { s with cores := t.cores, slu := t.slu }))
    ∧ (let s := ctxIs { running 1 0 with state := 4, started := false };
      (s.ctx 70 7).started = false ∧ (s.ctx 70 7).srec.waitEn = false
        ∧ out (.strandResume (.steward 70) 70 7) s (fun t => (t.ctx 70 7).state = 1 ∧ (t.ctx 70 7).t0 = 1000000))
    ∧ (let s := ctxIs (running 1 0);
      (s.ctx 70 7).state ≠ 4 ∧ out (.strandResume (.steward 70) 70 7) s (fun t => t = { s with slu := t.slu }))
    ∧ (let s := ctxIs { running 1 0 with stallAt := 800000 };
      s.awake 70 ∧ strandStalled s 70 7
        ∧ out (.strandStall 70 7) s (fun t => (t.ctx 70 7).stallAt = 1000000
          ∧ (t.evt.inputs.flatMap id).map (·.code) = [evStrandStall])) := by
  unfold mayStore; decide +kernel

theorem witness_StrandPort :
    let s := coreIs 70 { ctx := [(0, { state := 4, tag := 5 }), (7, { state := 1, tag := 6 })], sx := { coil := [[], []] } };
    s.settled ∧ s.live ∧ (s.page (.core 70)).pend = []
      ∧ mayStore s (.steward 70) (pageBase (.core 70) + (0x1800 + 0x88)) (leBytes 8 1)
      ∧ out (.strandPortRestart (.steward 70) 70) s (fun t => t.ctx 70 0 = { tag := 5 } ∧ (t.ctx 70 7).state = 1
        ∧ (t.core 70).sx.done = 1 ∧ (t.core 70).sx.coil.length = 2)
      ∧ out (.strandPortFlush (.steward 70) 70) s (fun t => t.ctx 70 7 = { tag := 6 } ∧ (t.ctx 70 0).state = 4
        ∧ (t.core 70).sx.done = 3 ∧ (t.core 70).sx.coil = []) := by
  unfold mayStore; decide +kernel

theorem witness_Presence_marks :
    (let v : Word := 0x8000000000200000;
      ready.settled ∧ ready.live ∧ mayWrite ready (.warden 0) .pres 0x100 v.toNat ∧ bits v.toNat 63 62 = 2
        ∧ bits v.toNat 47 40 = 0 ∧ bits v.toNat 20 0 = 0 ∧ bits v.toNat 39 21 = 1 ∧ inHbm (1 * 0x200000)
          ∧ bit v.toNat 60 = false
        ∧ out (.setAbsent (.warden 0) v) ready (fun t => t.pres.absent = [1] ∧ t.pres.errors = 0))
    ∧ (let v : Word := 0x9001000000200000;
      mayWrite ready (.warden 0) .pres 0x100 v.toNat ∧ bit v.toNat 60 = true ∧ ready.pres.remote.length < 1024
        ∧ out (.setAbsent (.warden 0) v) ready (fun t => t.pres.remote = [0x80001] ∧ t.pres.absent = [])
        ∧ (let s := { ready with pres := { remote := List.range 1024 } };
          1024 ≤ s.pres.remote.length ∧ 0x80001 ∉ s.pres.remote
            ∧ out (.setAbsent (.warden 0) v) s (fun t => t.pres.errors = 1 ∧ t.pres.lastErr = 2))) := by
  unfold mayWrite mayStore; decide +kernel

theorem witness_Presence_present :
    (let v : Word := 0x4000000000200000;
      let s := { ready with pres := { absent := [1, 2] } };
      mayWrite s (.warden 0) .pres 0x100 v.toNat ∧ bits v.toNat 63 62 = 1 ∧ bit v.toNat 61 = false
        ∧ out (.setPresent (.warden 0) v) s (fun t => t.pres.absent = [2]))
    ∧ (let v : Word := 0x6000000000200000;
      let s := { ctxIs { running 1 0 with state := 4, cause := evStrandPage, addr := 0xFFF * 2 ^ 40 + 0x200040, pos := 2 } with
        pres := { absent := [1] } };
      s.settled ∧ mayWrite s (.warden 0) .pres 0x100 v.toNat ∧ bit v.toNat 61 = true
        ∧ remoteOf s (s.ctx 70 7).addr = none ∧ localOf (s.ctx 70 7).addr / 0x200000 = 1 ∧ (s.ctx 70 7).srec.relEn = false
        ∧ out (.setPresent (.warden 0) v) s (fun t => (t.ctx 70 7).state = 2 ∧ t.pres.absent = []
          ∧ t = { s with pages := t.pages, slu := t.slu, pres := t.pres, cores := t.cores, waits := t.waits }))
    ∧ (let v : Word := 0x4000000000200001;
      mayWrite ready (.warden 0) .pres 0x100 v.toNat ∧ bits v.toNat 20 0 ≠ 0
        ∧ out (.setPresent (.warden 0) v) ready (fun t => t.pres.lastErr = 3))
    ∧ (let v : Word := 0x400000C000000000;
      mayWrite ready (.warden 0) .pres 0x100 v.toNat ∧ inHbm (bits v.toNat 39 21 * 0x200000) = false
        ∧ out (.setPresent (.warden 0) v) ready (fun t => t.pres.lastErr = 1 ∧ t.pres.errors = 1)) := by
  unfold mayWrite mayStore; decide +kernel

/-- A steward's request for the sync word at offset 0x208 of core 70's SRAM, and core 70's steward while it waits. -/
def syncReq : Req := ⟨.steward 70, sramAddr 70 0x208 + 0x800000000, .toReg 70 5 8 true, 0xFFF⟩
def waiting (v : Nat) : State :=
  { coreIs 70 { stw := { st := .run, wait := .access 4 0 5 } } with
    mem := Mem.write [] (sramAddr 70 0x208) (leBytes 8 v), resv := [(3, sramAddr 70 0x208)] }

/-- A request for bollard n of core 70, from another core's steward or a host. -/
def bolReq (n : Nat) : Req := ⟨.steward 3, pageBase (.core 70) + 0x2000 + 8 * n, .none, 0xFFF⟩
def launchReq : Req := { bolReq 0 with who := .host 3 }

/-- Chip knot slot 63 enabled for cores 70 and 71, or a hall slot of this device. -/
def knotted (t : ChipSlot) : State := (ready.setReg .knot (0x200 + 16 * 63) 1).setChipSlot 63 t
def halled (cfg : Nat) (t : HallSlot) : State := (ready.setReg .knot (0x600 + 16 * 15) cfg).setHallSlot 15 t

/-- What holds once the knot table has taken the command, as the dike tick ends. -/
def outTick (c : Instr) (s : State) (p : State → Prop) [∀ t, Decidable (p t)] : Bool := out c s (fun t => p (knotTick t))

/-! ## Sync words, bollards and knots -/

theorem witness_SyncWordOperations_barrier (op : SyncOp) : barrier (waiting 5) syncReq (.sync op) = .clear :=
  (barrier_sync (key := sramAddr 70 0x208) (by decide +kernel) op).trans (by decide +kernel)

theorem witness_SyncWordOperations :
    (waiting 5).settled ∧ (waiting 5).live ∧ (waiting 5).bankFinds = []
      ∧ homeOf (waiting 5) syncReq.addr = .sync (sramAddr 70 0x208)
      ∧ 0xC000000000 ≤ sramAddr 70 0x208 ∧ unwatched (waiting 5) (sramAddr 70 0x208) 8
      ∧ ((waiting 5).core 70).stw.wait = .access 4 0 5 ∧ ((waiting 5).core 70).stw.stopping = false
      ∧ sext (leNat ((waiting 5).mem.read (sramAddr 70 0x208) 8)) 64 = 5
      ∧ out (.syncWordRead syncReq) (waiting 5) (fun t => (t.core 70).stw.get 5 = 5 ∧ t.mem = (waiting 5).mem
        ∧ t.resv.length = 1)
      ∧ out (.syncWordSet syncReq 9) (waiting 5) (fun t => (t.core 70).stw.get 5 = 5 ∧ t.mem.read (sramAddr 70 0x208) 1 = [9#8]
        ∧ t.resv = [] ∧ t = { waiting 5 with cores := t.cores, slu := t.slu, mem := t.mem, resv := t.resv })
      ∧ (0 ≤ (5 : Int) + (-5) ∧ out (.syncWordAdd syncReq (-5)) (waiting 5) (fun t => t.mem = [] ∧ (t.core 70).stw.get 5 = 5))
      ∧ out (.syncWordSwap syncReq 9) (waiting 5) (fun t => (t.core 70).stw.get 5 = 5)
      ∧ out (.syncWordCmpSwap syncReq 5 9) (waiting 5) (fun t => t.mem.read (sramAddr 70 0x208) 1 = [9#8])
      ∧ out (.syncWordCmpSwap syncReq 6 9) (waiting 5) (fun t => t.mem = (waiting 5).mem ∧ t.resv.length = 1) := by
  unfold unwatched; decide +kernel

theorem witness_SyncWordOperations_range :
    let q : Req := ⟨.host 3, sramAddr 70 0x208 + 0x800000000, .none, 0xFFF⟩;
    homeOf ready q.addr = .sync (sramAddr 70 0x208) ∧ barrier ready q (.sync (.add (-1))) = .clear ∧ (0 : Int) + (-1) < 0
      ∧ out (.syncWordAdd q (-1)) ready (fun t => (t.evt.inputs.flatMap id).map (·.code) = [evSyncUnderflow]
        ∧ t = { ready with evt := t.evt, slu := t.slu })
      ∧ barrier ready q (.sync (.add (2 ^ 63))) = .clear
      ∧ out (.syncWordAdd q (2 ^ 63)) ready (fun t => (t.evt.inputs.flatMap id).map (·.code) = [evSyncOverflow]) := by
  decide +kernel

theorem witness_BollardOperations_put :
    (ready.settled ∧ ready.live ∧ (bolReq 63).cont = .none ∧ (bolReq 63).addr % 8 = 0
      ∧ homeOf ready (bolReq 63).addr = .bollard 70 63 ∧ barrier ready (bolReq 63) (.put 9) = .clear
      ∧ out (.put (bolReq 63) 9) ready (fun t => (t.core 70).bol = { full := [(63, 9)] }))
    ∧ (let s := coreIs 70 { bol := { waits := [⟨63, none, 5, bolReq 63, false⟩] } };
      alookup 63 (s.core 70).bol.full = none ∧ barrier s (bolReq 63) (.put 9) = .clear
        ∧ out (.put (bolReq 63) 9) s (fun t => (t.core 70).bol = {} ∧ t = { s with cores := t.cores, slu := t.slu }))
    ∧ (let s := coreIs 70 { bol := { full := [(63, 5)] } };
      s.bollardTimeout 70 ≠ 0 ∧ barrier s (bolReq 63) (.put 9) = .clear
        ∧ out (.put (bolReq 63) 9) s (fun t => (t.core 70).bol.full = [(63, 5)]
          ∧ (t.core 70).bol.waits = [⟨63, some 9, 1000000, bolReq 63, false⟩]))
    ∧ (let s := coreIs 70 { bol := { full := [(63, 5)], waits := List.replicate 32 ⟨63, some 1, 5, bolReq 63, false⟩ } };
      barrier s (bolReq 63) (.put 9) = .clear
        ∧ out (.put (bolReq 63) 9) s (fun t => t = { s with evt := t.evt, slu := t.slu }
          ∧ (t.evt.inputs.flatMap id).map (·.code) = [evBollardTimeout])) := by decide +kernel

theorem witness_BollardOperations_take :
    (let s := coreIs 70 { bol := { full := [(63, 5)] } };
      barrier s (bolReq 63) .take = .clear ∧ ¬ (63 = 0 ∧ (s.core 70).stw.st = .idle)
        ∧ out (.take (bolReq 63)) s (fun t => (t.core 70).bol = {})
      ∧ (let u := coreIs 70 { bol := { full := [(63, 5)], waits := [⟨63, some 7, 5, bolReq 63, false⟩] } };
        out (.take (bolReq 63)) u (fun t => (t.core 70).bol = { full := [(63, 7)] })))
    ∧ (let s := coreIs 70 { bol := { full := [(0, 5)] } };
      barrier s (bolReq 0) .take = .clear ∧ (s.core 70).stw.st = .idle
        ∧ out (.take (bolReq 0)) s (fun t => (t.core 70).bol.full = [(0, 5)]
          ∧ (t.core 70).bol.waits = [⟨0, none, 1000000, bolReq 0, true⟩]))
    ∧ (barrier ready (bolReq 1) .take = .clear
      ∧ out (.take (bolReq 1)) ready (fun t => (t.core 70).bol.waits.length = 1))
    ∧ (launchReq.who = .host 3 ∧ barrier ready launchReq (.launch 9) = .clear
      ∧ out (.launchPut launchReq 9) ready (fun t => (t.core 70).bol.full = [(0, 9)]))
    ∧ (let s := coreIs 70 { bol := { full := [(0, 5)] } };
      barrier s launchReq (.launch 9) = .clear
        ∧ out (.launchPut launchReq 9) s (fun t => (t.evt.inputs.flatMap id).map (·.code) = [evBollardFull]
          ∧ t = { s with evt := t.evt, slu := t.slu })) := by decide +kernel

theorem witness_BollardOperations_timeout :
    let w : BolWait := ⟨63, some 9, 900000, bolReq 63, false⟩;
    let s := coreIs 70 { bol := { full := [(63, 5)], waits := [w] } };
    s.settled ∧ s.live ∧ bolExpired s 70 = some w ∧ (s.polder (polderOf 70)).state = 0
      ∧ out (.bollardTimeout 70) s (fun t => (t.core 70).bol.waits = []
        ∧ (t.evt.inputs.flatMap id).map (·.code) = [evBollardTimeout])
      ∧ bolExpired (s.setPolder 1 { state := 2 }) 70 = some w
      ∧ out (.bollardTimeout 70) (s.setPolder 1 { state := 2 }) (fun t => (t.polder 1).wake = some (1000000, 3)
        ∧ (t.core 70).bol.waits = [w]) := by decide +kernel

theorem witness_KnotTable_arrive :
    let v : Word := 0x700000003F;
    let s := knotted { mask := [70, 71], gen := 7 * 16 };
    s.settled ∧ s.live ∧ mayWrite s (.steward 70) (.core 70) 0x160 v.toNat ∧ bits v.toNat 5 0 = 63 ∧ bits v.toNat 63 32 = 0x70
      ∧ chipEn s 63 ∧ 70 ∈ (s.chipSlot 63).mask ∧ 0x70 = (s.chipSlot 63).gen ∧ 70 ∉ (s.chipSlot 63).arrived
      ∧ outTick (.coreKnotArrive (.steward 70) 70 v) s (fun t => (t.chipSlot 63).arrived = [70] ∧ (t.chipSlot 63).t0 = 1000000)
      ∧ outTick (.coreKnotArrive (.steward 70) 70 0x710000003F) s (fun t => (t.evt.inputs.flatMap id).map (·.code) = [evKnotStale])
      ∧ (72 ∉ (s.chipSlot 63).mask ∧ mayWrite s (.steward 72) (.core 72) 0x160 v.toNat
        ∧ outTick (.coreKnotArrive (.steward 72) 72 v) s (fun t => (t.evt.inputs.flatMap id).map (·.code) = [evKnotNotMember]
          ∧ t.chipSlots = s.chipSlots))
      ∧ (let u := knotted { mask := [70, 71], gen := 0x70, arrived := [71] };
        (u.chipSlot 63).mask.length ≤ (u.chipSlot 63).arrived.length + 1 ∧ boundHall u 63 = none ∧ chipRelEn u 63 = false
          ∧ (u.page .knot).pend = [] ∧ (u.chipSlot 63).mask.Nodup ∧ u.mons = []
          ∧ (∀ d ∈ (u.chipSlot 63).mask, (u.polder (polderOf d)).state = 0)
          ∧ outTick (.coreKnotArrive (.steward 70) 70 v) u (fun t => (t.chipSlot 63).gen = 0x71 ∧ (t.chipSlot 63).arrived = []
            ∧ (t.core 71).seen = 2 ^ 63
            ∧ t = { u with pages := t.pages, slu := t.slu, chipSlots := t.chipSlots, cores := t.cores }))
      ∧ s.knotIn = [] ∧ out (.coreKnotArrive (.steward 70) 70 v) s (fun t => t.knotIn = [.arrive 70 63 0x70]) := by
  unfold mayWrite mayStore; decide +kernel

theorem witness_KnotTable_cancel :
    (ready.settled ∧ ready.live ∧ mayWrite ready tmp .knot 0x108 (0x100 + 63) ∧ (ready.page .knot).pend = []
      ∧ (ready.chipSlot 63).arrived = []
      ∧ outTick (.knotCancel tmp 63) ready (fun t => t = { ready with pages := t.pages, slu := t.slu }))
    ∧ (let s := knotted { mask := [70, 71], gen := 2 ^ 32 - 1, arrived := [71] };
      mayWrite s tmp .knot 0x108 (0x100 + 63) ∧ (s.chipSlot 63).arrived ≠ []
        ∧ outTick (.knotCancel tmp 63) s (fun t => (t.chipSlot 63).gen = 0 ∧ (t.core 70).cancelled = 2 ^ 63))
    ∧ (let s := halled 3 { mask := [0xFFF], count := 1, pending := true };
      mayWrite s tmp .knot 0x108 (0x140 + 15) ∧ hallEn s 15 ∧ hallRoot s 15 ∧ hallChildren s 15 = [] ∧ hallBound s 15 = none
        ∧ hallEn ready 15 = false
        ∧ outTick (.hallCancel tmp 15) s (fun t => t.hallSlot 15 = { mask := [0xFFF], gen := 1 })
        ∧ outTick (.hallCancel tmp 15) ready (fun t => t.hallSlots = []))
    ∧ (let s := knotted { mask := [70, 71], arrived := [71], t0 := 999990, wdog := 10 };
      chipOverdue s 63 ∧ out (.chipKnotWatchdog 63) s (fun t => (t.chipSlot 63).timedOut
        ∧ (t.evt.inputs.flatMap id).map (·.code) = [evKnotTimeout]))
    ∧ (let s := halled 1 { pending := true, count := 3, t0 := 999990, wdog := 10 };
      hallOverdue s 15 ∧ out (.hallKnotWatchdog 15) s (fun t => (t.hallSlot 15).timedOut
        ∧ (t.evt.inputs.flatMap id).map (·.code) = [evKnotTimeout])) := by
  unfold mayWrite mayStore; decide +kernel

theorem witness_KnotTable_device :
    (let s := halled (3 + 2 * 2 ^ 29) { mask := [0xFFF, 5], gen := 4 };
      s.settled ∧ mayWrite s tmp .knot 0x108 (0x240 + 15) ∧ hallEn s 15 ∧ s.deviceId ∈ (s.hallSlot 15).mask
        ∧ (s.hallSlot 15).self = false ∧ (s.hallSlot 15).count + 1 < hallSubtree s 15
        ∧ outTick (.deviceArrival tmp 15) s (fun t => (t.hallSlot 15).count = 1 ∧ (t.hallSlot 15).self)
        ∧ (let u := s.setHallSlot 15 { mask := [0xFFF, 5], gen := 4, count := 1, pending := true };
          (u.hallSlot 15).count + 1 = hallSubtree u 15 ∧ hallRoot u 15 ∧ hallChildren u 15 = [] ∧ hallBound u 15 = none
            ∧ outTick (.deviceArrival tmp 15) u (fun t => t.hallSlot 15 = { mask := [0xFFF, 5], gen := 5 }))
        ∧ (let u := s.setHallSlot 15 { mask := [0xFFF, 5], gen := 4, count := 1, self := true };
          outTick (.deviceArrival tmp 15) u (fun t => t.hallSlots = u.hallSlots
            ∧ (t.evt.inputs.flatMap id).map (·.code) = [evKnotStale])))
    ∧ (hallEn ready 15 = false
      ∧ outTick (.deviceArrival tmp 15) ready (fun t => (t.evt.inputs.flatMap id).map (·.code) = [evKnotNotMember])) := by
  unfold mayWrite mayStore; decide +kernel

theorem witness_KnotTable_load :
    let v : Word := word (63 * 2 ^ 40 + sramAddr 70 0x400);
    let image : List Byte := 6#8 :: List.replicate 1279 0#8;
    let s := { ready with mem := Mem.write [] (sramAddr 70 0x400) (image ++ leBytes 4 (crc32c image)) };
    s.settled ∧ s.live ∧ mayWrite s tmp .knot 0x100 v.toNat ∧ (s.page .knot).pend = [] ∧ bit v.toNat 46 = false
      ∧ bits v.toNat 39 0 % 64 = 0 ∧ chipEn s 63 = false ∧ bits v.toNat 39 0 + 1284 ≤ 0xC0A0000000 ∧ s.bankFinds = []
      ∧ crc32c ((s.mem.read (sramAddr 70 0x400) 1284).take 1280) = leNat ((s.mem.read (sramAddr 70 0x400) 1284).drop 1280)
      ∧ out (.knotMaskLoad tmp v) s (fun t => (t.chipSlot 63).mask = [1, 2])
      ∧ (mayWrite s tmp .knot 0x100 (v + 64).toNat
        ∧ crc32c ((s.mem.read (sramAddr 70 0x440) 1284).take 1280) ≠ leNat ((s.mem.read (sramAddr 70 0x440) 1284).drop 1280)
        ∧ out (.knotMaskLoad tmp (v + 64)) s (fun t => t.chipSlots = []
          ∧ (t.evt.inputs.flatMap id).map (·.code) = [evKnotLoadBad]))
      ∧ (mayWrite s tmp .knot 0x100 (v + 1).toNat ∧ bits (v + 1).toNat 39 0 % 64 ≠ 0
        ∧ out (.knotMaskLoad tmp (v + 1)) s (fun t => (t.evt.inputs.flatMap id).map (·.code) = [evKnotLoadBad])) := by
  unfold mayWrite mayStore; decide +kernel

/-- Stack 11 as given. -/
def stackIs (v : Stack) : State := ready.setStack 11 v

/-- A TMP client's request at offset o of stack 11, and one of core 70's steward. -/
def hbmReq (o : Nat) : Req := ⟨tmp, 0xB000000000 + o, .none, 0xFFF⟩
def loadReq (o : Nat) : Req := ⟨.steward 70, 11 * 0x1000000000 + o, .toReg 70 5 8 true, 0xFFF⟩

/-! ## HBM stacks -/

theorem witness_HbmAccesses_write :
    let s := { stackIs { lines := [⟨1, true, false, [], List.replicate 128 7#8⟩] } with resv := [(3, 0xB0000000F8)] };
    s.settled ∧ s.live ∧ s.mem.wf ∧ (s.stack 11).upsets = [] ∧ (hbmReq 0xFF).cont = .none
      ∧ 11 = (hbmReq 0xFF).addr / 0x1000000000 ∧ (hbmReq 0xFF).addr < 0xC000000000 ∧ cacheCoherent s 11
      ∧ barrier s (hbmReq 0xFF) (.store [1#8, 2#8]) = .clear ∧ isMirrored s (hbmReq 0xFF).addr 2 = false
      ∧ out (.hbmWrite (hbmReq 0xFF) [1#8, 2#8] .ordinary []) s (fun t => t.peek 0xB0000000FE 4 = [7#8, 1#8, 2#8, 0#8]
        ∧ t.resv = []
        ∧ t = { s with hbmStacks := t.hbmStacks, mem := t.mem, resv := t.resv, slu := t.slu }) := by
  unfold cacheCoherent; decide +kernel

theorem witness_HbmAccesses_read :
    let s := { stackIs { lines := [⟨1, true, false, [], List.replicate 128 7#8⟩] } with mem := [(0xB000000100, 3#8)] };
    barrier s (hbmReq 0xFF) (.load 2 false) = .clear ∧ (hbmRead (hbmReq 0xFF).addr 2 .ordinary s).1 = ([7#8, 3#8], none)
      ∧ cacheCoherent s 11
      ∧ out (.hbmRead (hbmReq 0xFF) 2 .ordinary []) s (fun t => t.peek 0xB0000000FF 2 = [7#8, 3#8]
        ∧ t = { s with hbmStacks := t.hbmStacks, mem := t.mem, slu := t.slu })
      ∧ out (.hbmRead (hbmReq 0xFF) 2 .last []) s (fun t => (t.stack 11).lines = [] ∧ t.mem = s.mem) := by
  unfold cacheCoherent; decide +kernel

theorem witness_HbmAccesses_poison :
    let s := { (stackIs {}).setCore 70 { stw := { st := .run, wait := .access 4 0 5, csr := [(0x305, 0x400)] } } with mem := [(0xBF5FFFFFF8, 3#8)] };
    s.settled ∧ s.live ∧ s.mem.wf ∧ 0xF5FFFFFF8 % 8 = 0 ∧ 0xF5FFFFFF8 < 0xF60000000
      ∧ barrier s (loadReq 0xF5FFFFFF8) (.load 8 false) = .clear ∧ cacheCoherent s 11 ∧ (s.stack 11).lines = []
      ∧ 0xF5FFFFFF8 / 32 ∉ (s.stack 11).poison
      ∧ out (.hbmRead (loadReq 0xF5FFFFFF8) 8 .stream []) s (fun t => (t.core 70).stw.get 5 = 3 ∧ t.evt = s.evt)
      ∧ (let u := s.setStack 11 { poison := [0xF5FFFFFF8 / 32] };
        barrier u (loadReq 0xF5FFFFFF8) (.load 8 false) = .clear ∧ cacheCoherent u 11
          ∧ out (.hbmRead (loadReq 0xF5FFFFFF8) 8 .stream []) u (fun t => (t.core 70).stw.get 5 = 0
            ∧ (t.core 70).stw.wait = .nothing ∧ (t.evt.inputs.flatMap id).map (·.code) = [evHbmPoison])) := by
  unfold cacheCoherent; decide +kernel

theorem witness_StackFaults_retrain :
    (let s := stackIs { maint := some (.retrain, 31) };
      s.settled ∧ s.live ∧ tokensOut s < 2 ∧ (upto 12).find? (awaitsToken s) = some 11 ∧ s.held = []
        ∧ out (.retrainTokenGrant 11) s (fun t => (t.stack 11).token
          ∧ t = { s with hbmStacks := t.hbmStacks, slu := t.slu }))
    ∧ (let s := stackIs { maint := some (.retrain, 31), token := true, attempts := 2 };
      (s.stack 11).maint = some (.retrain, 31) ∧ (s.stack 11).token = true ∧ (s.stack 11).waiting = []
        ∧ out (.retrainAttemptEnd 11 true) s (fun t => t.stack 11 = { seep := 1 }
          ∧ (t.evt.inputs.flatMap id).map (·.code) = [evHbmRetrain])
        ∧ 3 ≤ (s.stack 11).attempts + 1 ∧ (s.stack 11).outPc = none ∧ (s.stack 11).state ≠ 2
        ∧ out (.retrainAttemptEnd 11 false) s (fun t => (t.stack 11).maint = some (.migration, 31)
          ∧ (t.stack 11).state = 1 ∧ t.sec.logMigrating = [(11, 31)]
          ∧ (t.evt.inputs.flatMap id).map (·.code) = [evHbmBreach]))
    ∧ (let s := stackIs { state := 3, maint := some (.retrain, 31), token := true, returning := [31] };
      (s.stack 11).waiting = [] ∧ (s.stack 11).returning = [31] ∧ servingState s 11 = 0
        ∧ out (.retrainAttemptEnd 11 true) s (fun t => (t.stack 11).state = 0 ∧ (t.stack 11).returning = []
          ∧ (t.stack 11).maint = none))
    ∧ (let s := stackIs { maint := some (.retrain, 31), token := true, attempts := 1 };
      (s.stack 11).attempts + 1 < 3 ∧ out (.retrainAttemptEnd 11 false) s (fun t => (t.stack 11).attempts = 2)) := by
  decide +kernel

theorem witness_StackFaults_migration :
    (let s := stackIs { state := 1, outPc := some 31, migrating := true, maint := some (.migration, 31) };
      s.settled ∧ s.live ∧ s.stackUp 11 ∧ s.held = [] ∧ (s.stack 11).copyPtr + 1 < usableBlocks
        ∧ out (.migrationCopy 11 []) s (fun t => (t.stack 11).copyPtr = 1))
    ∧ (let s := { stackIs { state := 1, outPc := some 31, migrating := true, maint := some (.migration, 31), copyPtr := usableBlocks - 1 } with
        sec := { ready.sec with logMigrating := [(11, 31)] } };
      (s.stack 11).copyPtr + 1 = usableBlocks ∧ (s.stack 11).waiting = []
        ∧ out (.migrationCopy 11 []) s (fun t => (t.stack 11).migrating = false ∧ (t.stack 11).outPc = some 31
          ∧ t.sec.logPcs = [(11, 31)] ∧ t.sec.logMigrating = []
          ∧ (t.evt.inputs.flatMap id).map (·.code) = [evHbmPcRetired])) := by decide +kernel

theorem witness_StackFaults_repair :
    (let v : Word := 0x7E00000080000000;
      mayWrite ready tmp (.stk 11) 0x130 v.toNat ∧ (ready.stack 11).repairState ≠ 1 ∧ bits v.toNat 63 62 = 1
        ∧ arbiterIdle ready 11
        ∧ out (.softRepair tmp 11 v) ready (fun t => (t.stack 11).maint = some (.repair, 31) ∧ (t.stack 11).repairState = 1))
    ∧ (let v : Word := 0xBE00000000000000;
      mayWrite ready tmp (.stk 11) 0x130 v.toNat ∧ bits v.toNat 63 62 = 2 ∧ (ready.stack 11).state ≠ 3
        ∧ out (.hardRepair tmp 11 v) ready (fun t => t.stack 11 = { repairState := 3 }
          ∧ (t.evt.inputs.flatMap id).map (·.code) = [evHbmRepairBad])
        ∧ (let s := stackIs { state := 3 };
          mayWrite s tmp (.stk 11) 0x130 v.toNat ∧ arbiterIdle s 11
            ∧ out (.hardRepair tmp 11 v) s (fun t => (t.stack 11).maint = some (.repair, 31))))
    ∧ (let s := stackIs { repairState := 1, repairOp := 0x7E00000080000000, maint := some (.repair, 31) };
      (s.stack 11).maint = some (.repair, 31) ∧ (s.stack 11).waiting = [] ∧ bits (s.stack 11).repairOp 63 62 = 1
        ∧ out (.repairComplete 11 true) s (fun t => (t.stack 11).softUsed = 1 ∧ t.sec.logSoft.length = 1)
        ∧ out (.repairComplete 11 false) s (fun t => (t.stack 11).repairState = 3
          ∧ (t.evt.inputs.flatMap id).map (·.code) = [evHbmRepairBad])) := by
  unfold mayWrite mayStore arbiterIdle; decide +kernel

theorem witness_StackMaintenance_arbiter :
    (ready.settled ∧ ready.live ∧ ready.held = [] ∧ ready.stackUp 11 ∧ 31 < 32 ∧ arbiterIdle ready 11
      ∧ out (.calibration 11 31) ready (fun t => (t.stack 11).maint = some (.calibration, 31))
      ∧ ready.field (.stk 11) 0x128 15 0 ≠ 0 ∧ (ready.stack 11).scrubNext + 1 < stackBlocks
      ∧ out (.scrub 11 []) ready (fun t => (t.stack 11).scrubNext = 1 ∧ (t.stack 11).maint = some (.scrub, 0)))
    ∧ (let s := stackIs { maint := some (.calibration, 31) };
      (s.stack 11).waiting = [] ∧ out (.calibrationComplete 11) s (fun t => t.stack 11 = {}))
    ∧ (let s := { stackIs { counts := [(31, { corr := 5 })] } with now := 200000000 };
      s.field (.stk 11) 0x100 31 0 ≠ 0 ∧ (s.stack 11).window ≠ s.now / s.field (.stk 11) 0x100 31 0
        ∧ out (.hbmErrorWindow 11) s (fun t => t.stack 11 = { window := 2 }))
    ∧ (let s := ready.setPage (.stk 11) { pend := [(0x128, ⟨0xFFFF, 5, false⟩)] };
      (s.page (.stk 11)).pend = [(0x128, ⟨0xFFFF, 5, false⟩)] ∧ (s.page (.msc 11)).pend = [] ∧ (s.page (.spl 11)).pend = []
        ∧ (s.page (.stk 11)).hold = false
        ∧ out (.refreshInterval 11) s (fun t => t.reg (.stk 11) 0x128 = 5 ∧ (t.page (.stk 11)).pend = []
          ∧ t = { s with pages := t.pages, slu := t.slu })) := by
  unfold arbiterIdle; decide +kernel

theorem witness_StackMaintenance_cache :
    (mayWrite ready tmp (.msc 11) 0x108 1 ∧ (ready.stack 11).busy = false
      ∧ out (.mscWriteBack tmp 11) ready (fun t => (t.stack 11).busy ∧ (t.stack 11).mscCmd = 1)
      ∧ out (.mscWriteBackInvalidate tmp 11) ready (fun t => (t.stack 11).mscCmd = 2))
    ∧ (let s := stackIs { busy := true, mscCmd := 2, lines := [⟨1, true, false, [], List.replicate 128 7#8⟩] };
      s.mem.wf ∧ cacheCoherent s 11 ∧ (s.stack 11).busy = true ∧ (s.stack 11).mscCmd = 2
        ∧ mayWrite s tmp (.msc 11) 0x108 1
          ∧ out (.mscWriteBack tmp 11) s (fun t => t = { s with pages := t.pages, slu := t.slu })
        ∧ mscDue s 11
        ∧ out (.mscCmdDone 11) s (fun t => (t.stack 11).lines = [] ∧ t.mem.read 0xB000000080 2 = [7#8, 7#8]
          ∧ (t.stack 11).busy = false))
    ∧ (let s := stackIs { busy := true, mscCmd := 4, lines := [⟨1, true, false, [], List.replicate 128 7#8⟩] };
      (s.stack 11).mscCmd = 4 ∧ s.mem.wf ∧ cacheCoherent s 11
        ∧ (∀ l ∈ (s.stack 11).lines, l.dirty = true → lineHeld (s.stack 11) l.idx = false)
        ∧ out (.bringupWriteBackComplete 11) s (fun t => t.stack 11 = { state := 3 }
          ∧ t.mem.read 0xB000000080 2 = [7#8, 7#8])) := by
  unfold mayWrite mayStore cacheCoherent; decide +kernel

theorem witness_StackMaintenance_wrapper :
    (mayWrite ready tmp (.stk 11) 0x140 9 ∧ out (.stk1500Instr tmp 11 9) ready (fun t => t.stack 11 = {})
      ∧ out (.stk1500Instr tmp 11 9) (stackIs { state := 3 }) (fun t => (t.stack 11).instr1500 = 9)
      ∧ mayWrite ready tmp (.stk 11) 0x148 9
      ∧ out (.stk1500DataWrite tmp 11 9) (stackIs { state := 3 }) (fun t => (t.stack 11).data1500 = 9))
    ∧ (let q : Req := ⟨.steward 70, pageBase (.stk 11) + 0x148, .toReg 70 5 8 true, 0xFFF⟩;
      let s := (stackIs { state := 3 }).setCore 70 { stw := { st := .run, wait := .access 4 0 5 } };
      barrier s q (.load 8 false) = .clear
        ∧ out (.stk1500DataRead q 11) s (fun t => t.freeCount = 1 ∧ (t.core 70).stw.pc = 4)) := by
  unfold mayWrite mayStore; decide +kernel

/-- Device 5 with one link of port 3 as given. -/
def linkIs (l : Link) : State := (ready.setPort 3 { link0 := l }).setReg .chip 0x100 5

/-- A link that is up, with room for every lane at its partner, 9. -/
def upLink : Link := { state := 3, neighbour := some (9, 4), credits := [512, 768, 384, 256, 128] }

/-- A READ of 8 bytes at offset 0x40 of core 70's SRAM, from device 9 to device 5. -/
def readPkt : Packet := mkPacket 0x01 false none 5 9 (sramAddr 70 0x40) 8 7 0 0 false 0 []

/-- LINK HELLO of device 9's port 4. -/
def helloPkt (nid : Nat) : Packet :=
  mkPacket 0x10 false none 0xFFF nid 0 8 0 0 0 false 0 (leBytes 8 (nid + 4 * 65536))

/-! ## Fabric links -/

theorem witness_Links_flit :
    (let s := linkIs { upLink with rxSeq := 6 };
      let flit := mkFlit 6 0 (packetBytes readPkt);
      s.settled ∧ s.live ∧ linkCarries s 3 0 ∧ flit.length = 256 ∧ crc32c (flit.take 252) = leNat (flit.drop 252)
        ∧ bits (leNat (flit.take 8)) 15 0 = (s.link 3 0).rxSeq ∧ bits (leNat (flit.take 8)) 47 38 = 0
        ∧ out (.flitReceive 3 0 (mkFlit 7 0 (packetBytes readPkt)) 0 []) s (fun t => (t.link 3 0).nakSent
          ∧ t.sent = [.flit 3 0 (idleFlit (s.link 3 0) true 0 0)]))
    ∧ (let s := linkIs { upLink with rxSeq := 6 };
      let body := leBytes 8 6 ++ fit 0#8 244 (packetBytes readPkt);
      let flit := body ++ leBytes 4 (crc32c body);
      flit.length = 256 ∧ crc32c (flit.take 252) = leNat (flit.drop 252)
        ∧ bits (leNat (flit.take 8)) 15 0 = 6 ∧ bits (leNat (flit.take 8)) 34 32 = 0 ∧ bits (leNat (flit.take 8)) 47 38 = 0
        ∧ packetSize readPkt ≤ 244 ∧ laneOpen (s.link 3 0) (pVl readPkt)
        ∧ readPkt = { parseHeader ((flit.drop 8).take 244) with
            data := (((flit.drop 8).take 244).take (packetSize readPkt)).drop 32 }
        ∧ out (.flitReceive 3 0 flit 0 []) s (fun t => (t.link 3 0).rx = [readPkt] ∧ (t.link 3 0).rxSeq = 7
          ∧ t.sent = [.flit 3 0 (idleFlit (t.link 3 0) false 0 0)])
        ∧ ¬ ((1#8 :: flit.drop 1).length = 256
          ∧ crc32c ((1#8 :: flit.drop 1).take 252) = leNat ((1#8 :: flit.drop 1).drop 252))
        ∧ out (.flitReceive 3 0 (1#8 :: flit.drop 1) 0 []) s (fun t => t.link 3 0 = { upLink with
            rxSeq := 6, nakSent := true } ∧ t.sent = [.flit 3 0 (idleFlit (s.link 3 0) true 0 0)])) := by decide +kernel

theorem witness_Links_retrain :
    (linkExists (linkIs upLink) 3 0 ∧ linkCarries (linkIs upLink) 3 0 ∧ laneLink (linkIs upLink) 3 7 = 0
      ∧ 7 ∈ linkLanes (linkIs upLink) 3 0
      ∧ out (.laneLockLoss 3 7) (linkIs upLink) (fun t => (t.link 3 0).state = 4 ∧ (t.link 3 0).failedLanes.length = 8)
      ∧ mayWrite (linkIs upLink) tmp (.fport 3) 0x120 1
      ∧ out (.fportRetrain tmp 3 0) (linkIs upLink) (fun t => (t.link 3 0).state = 4))
    ∧ (let s := linkIs { upLink with state := 4, attempts := 1, failedLanes := [2, 7] };
      linkExists s 3 0 ∧ 7 ∈ linkLanes s 3 0 ∧ (s.link 3 0).attempts + 1 < 3
        ∧ out (.linkRetrainAttemptEnd 3 0 []) s (fun t => (t.link 3 0).state = 6 ∧ (t.link 3 0).neighbour = none
          ∧ (t.evt.inputs.flatMap id).map (·.code) = [evFabLinkRetrain])
        ∧ out (.linkRetrainAttemptEnd 3 0 [7]) s (fun t => (t.link 3 0).attempts = 2 ∧ (t.link 3 0).failedLanes = [7]))
    ∧ (let s := (linkIs { upLink with credits := [0, 0, 0, 0, 0], queue := [⟨readPkt, none, 16, false⟩] }).setReg
          (.fport 3) 0x100 (0x3E8 * 2 ^ 32 + 1);
      creditStalled s 3 0 0 ∧ out (.fabCreditStall 3 0 0) s (fun t => (t.link 3 0).stalled = [true, false, false, false, false]
        ∧ (t.evt.inputs.flatMap id).map (·.code) = [evFabCreditStall])) := by
  unfold mayWrite mayStore; decide +kernel

theorem witness_LinkUpAndHello_up :
    let s := (linkIs { state := 2 }).setReg (.fport 3) 0x100 1;
    s.settled ∧ s.live ∧ linkExists s 3 0 ∧ portEnabled s 3 ∧ (s.link 3 0).state = 2
      ∧ out (.linkUp 3 0) s (fun t => (t.link 3 0).state = 6 ∧ (t.link 3 0).credits = [512, 768, 384, 256, 127]
        ∧ t.sent.length = 1 ∧ (t.link 3 0).flight.map (·.2) = [bumpHops (helloPacket s 3 0)]) := by decide +kernel

theorem witness_LinkUpAndHello_hello :
    let s := linkIs { upLink with state := 6, neighbour := none, rx := [helloPkt 9, helloPkt 5] };
    s.settled ∧ s.live ∧ linkCarries s 3 0 ∧ helloPkt 9 ∈ (s.link 3 0).rx ∧ pOpc (helloPkt 9) = 0x10
      ∧ packetTurn s 3 (helloPkt 9) ∧ malformed (helloPkt 9) = false
      ∧ bits (leNat (helloPkt 9).data) 11 0 = 9
      ∧ out (.linkHello 3 0 (helloPkt 9)) s (fun t => t.link 3 0 = { upLink with rx := [helloPkt 5] } ∧ t.evt = s.evt)
      ∧ packetTurn s 3 (helloPkt 5) ∧ malformed (helloPkt 5) = false
      ∧ out (.linkHello 3 0 (helloPkt 5)) s (fun t => (t.link 3 0).state = 6 ∧ (t.link 3 0).neighbour = some (5, 4)
        ∧ (t.evt.inputs.flatMap id).map (·.code) = [evFabIdConflict]) := by decide +kernel

theorem witness_LinkUpAndHello_reinstate :
    (let s := (linkIs { upLink with state := 5, rxSeq := 9 }).setPort 3 { link0 := { state := 5 }, dead := [1, 6], mode := 0 };
      s.settled ∧ s.live ∧ (s.port 3).split = false ∧ (s.link 3 0).state = 5 ∧ mayWrite s tmp (.fport 3) 0x120 2
        ∧ out (.fportReinstate tmp 3 0) s (fun t => (t.port 3).dead = [] ∧ (t.link 3 0).state = 4
          ∧ (t.link 3 0).credits = [512, 768, 384, 256, 128]))
    ∧ (let s := (linkIs upLink).setPort 3 { link0 := upLink, link1 := { state := 5 }, split := true, dead := [1, 5, 6] };
      linkExists s 3 1 ∧ portEnabled s 3 ∧ (s.link 3 1).state = 5 ∧ mayWrite s tmp (.fport 3) 0x120 6
        ∧ out (.fportReinstate tmp 3 1) s (fun t => (t.port 3).dead = [1] ∧ (t.link 3 1).state = 4 ∧ t.link 3 0 = upLink))
    ∧ (let s := (linkIs upLink).setPort 3 { link0 := upLink, mode := 1, dead := [5] };
      (s.port 3).mode ≠ 0 ∧ mayWrite s tmp (.fport 3) 0x120 2
        ∧ out (.fportReinstate tmp 3 0) s (fun t => (t.port 3).mode = 0 ∧ (t.link 3 0).state = 4))
    ∧ (let s := { linkIs upLink with now := 200000000 }.setPort 3 { link0 := upLink, uncorr := [(2, 7)] };
      s.settled ∧ s.live ∧ s.field (.fport 3) 0x118 31 0 ≠ 0 ∧ (s.port 3).window ≠ s.now / s.field (.fport 3) 0x118 31 0
        ∧ out (.fabricErrorWindow 3) s (fun t => t.port 3 = { link0 := upLink, window := 2 })) := by
  unfold mayWrite mayStore; decide +kernel

/-- Device 5 with a packet in the receive buffer of port 3, whose neighbour 9 it reaches by that port. -/
def rxIs (p : Packet) (s : State) : State :=
  let s := (s.setPort 3 { link0 := { state := 3, neighbour := some (9, 4), credits := [512, 768, 384, 256, 128], rx := [p] } }).setReg
    .chip 0x100 5
  { s with fab := { s.fab with route := [(9, 8)] } }

/-- A request of device 9 for device 5, with REQ_ID 7; and the answers under way: REQ_ID, STATUS, operand, data. -/
def pktFor (opc a len aux operand : Nat) (data : List Byte) : Packet :=
  mkPacket opc (aget (0, false, false) opc opcTable).2.1 none 5 9 a len 7 0 aux false operand data
def answered (t : State) : List (Nat × Nat × Nat × List Byte) :=
  (t.link 3 0).flight.map fun f => (pReqId f.2, pStatus f.2, f.2.w3.toNat, f.2.data)

/-- The same with core 70's SRAM holding v at offset 0x208, and a packet for that word's alias. -/
def wordIs (p : Packet) (v : Nat) : State :=
  rxIs p { ready with mem := Mem.write [] (sramAddr 70 0x208) (leBytes 8 v), resv := [(3, sramAddr 70 0x208)] }
def aliasPkt (opc operand : Nat) : Packet := pktFor opc (sramAddr 70 0x208 + 0x800000000) 8 0 operand []

/-! ## Packets -/

theorem witness_MemoryAndSyncPackets_memory :
    (let p := pktFor 0x01 (sramAddr 70 0x208) 2 0 0 [];
      let s := wordIs p 0x1234;
      s.settled ∧ s.live ∧ s.bankFinds = [] ∧ homeOf s (pAddr p) = .sram 70 (sramAddr 70 0x208) ∧ arrived s 3 p 0x01
        ∧ barrier s (packetReq s 3 p) (.load (pLen p) false) = .clear
        ∧ out (.read 3 p []) s (fun t => answered t = [(7, 0, 0, [0x34#8, 0x12#8])] ∧ t.mem = s.mem))
    ∧ (let p := pktFor 0x02 (sramAddr 70 0x20A) 2 0 0 [1#8, 2#8];
      let s := wordIs p 0x1234;
      arrived s 3 p 0x02 ∧ barrier s (packetReq s 3 p) (.store p.data) = .clear ∧ unwatched s (pAddr p) p.data.length
        ∧ out (.write 3 p) s (fun t => answered t = [(7, 0, 0, [0#8])] ∧ t.resv = []
          ∧ t.mem.read (sramAddr 70 0x208) 5 = [0x34#8, 0x12#8, 1#8, 2#8, 0#8]))
    ∧ (let p := pktFor 0x0D (sramAddr 70 0x208) 1 0 0 [9#8];
      let s := wordIs p 0x1234;
      arrived s 3 p 0x0D ∧ barrier s (packetReq s 3 p) (.store p.data) = .clear ∧ unwatched s (pAddr p) p.data.length
        ∧ out (.mirrorWrite 3 p) s (fun t => answered t = [(7, 0, 0, [0#8])]
          ∧ t.mem.read (sramAddr 70 0x208) 2 = [9#8, 0x12#8])) := by
  unfold arrived unwatched; decide +kernel

theorem witness_MemoryAndSyncPackets_sync :
    (let p := aliasPkt 0x05 3;
      let s := wordIs p 4;
      s.settled ∧ s.live ∧ s.bankFinds = [] ∧ aliasAddr (pAddr p) ∧ homeOf s (pAddr p) = .sync (sramAddr 70 0x208)
        ∧ unwatched s (sramAddr 70 0x208) 8 ∧ arrived s 3 p 0x05
        ∧ (∀ op ∈ [SyncOp.add 3, .add (-3), .set 3, .read], barrier s (packetReq s 3 p) (.sync op) = .clear)
        ∧ out (.syncAdd 3 p) s (fun t => answered t = [(7, 0, 4, [0#8])] ∧ t.mem.read (sramAddr 70 0x208) 2 = [7#8, 0#8]))
    ∧ (let p := aliasPkt 0x06 3;
      arrived (wordIs p 4) 3 p 0x06
        ∧ out (.syncSub 3 p) (wordIs p 4) (fun t => answered t = [(7, 0, 4, [0#8])]
          ∧ t.mem.read (sramAddr 70 0x208) 2 = [1#8, 0#8])
        ∧ out (.syncSub 3 p) (wordIs p 2) (fun t => answered t = [(7, evSyncUnderflow, 0, [0#8])]
          ∧ t.mem = (wordIs p 2).mem ∧ (t.evt.inputs.flatMap id).map (·.code) = [evSyncUnderflow]))
    ∧ (let p := aliasPkt 0x07 9;
      arrived (wordIs p 4) 3 p 0x07 ∧ p.w3.toNat < 2 ^ 63
        ∧ out (.syncSet 3 p) (wordIs p 4) (fun t => answered t = [(7, 0, 0, [0#8])]
          ∧ t.mem.read (sramAddr 70 0x208) 2 = [9#8, 0#8]))
    ∧ (let p := aliasPkt 0x08 0;
      arrived (wordIs p 4) 3 p 0x08
        ∧ out (.syncRead 3 p) (wordIs p 4) (fun t => answered t = [(7, 0, 4, [0#8])] ∧ t.mem = (wordIs p 4).mem)) := by
  unfold arrived unwatched; decide +kernel

theorem witness_OtherPackets_bollards :
    (let p := pktFor 0x09 (pageBase (.core 70) + 0x2000 + 8 * 63) 8 0 77 [];
      let s := rxIs p ready;
      s.settled ∧ s.live ∧ bollardAddr (pAddr p) ∧ homeOf s (pAddr p) = .bollard 70 63 ∧ (s.core 70).bol.waits = []
        ∧ arrived s 3 p 0x09 ∧ barrier s (packetReq s 3 p) (.put p.w3) = .clear
        ∧ alookup 63 (s.core 70).bol.full = none
        ∧ out (.bollardPut 3 p) s (fun t => answered t = [(7, 0, 0, [0#8])] ∧ (t.core 70).bol.full = [(63, 77)]))
    ∧ (let p := pktFor 0x0A (pageBase (.core 70) + 0x2000) 8 0 0 [];
      let s := rxIs p (coreIs 70 { bol := { full := [(0, 77), (1, 5)] }, stw := { st := .run } });
      homeOf s (pAddr p) = .bollard 70 0 ∧ arrived s 3 p 0x0A ∧ barrier s (packetReq s 3 p) .take = .clear
        ∧ (s.core 70).stw.st ≠ .idle ∧ alookup 0 (s.core 70).bol.full = some 77
        ∧ out (.bollardTake 3 p) s (fun t => answered t = [(7, 0, 77, [0#8])] ∧ (t.core 70).bol.full = [(1, 5)])) := by
  unfold arrived; decide +kernel

theorem witness_OtherPackets_knots :
    (let p := pktFor 0x0B 0 8 15 (4 + 2 * 2 ^ 32) [];
      let s := rxIs p ((ready.setReg .knot (0x600 + 16 * 15) (1 + 2 ^ (13 + 3) + 4 * 2 ^ 29)).setHallSlot 15 { gen := 4, count := 1 });
      s.settled ∧ s.live ∧ arrived s 3 p 0x0B ∧ pAux p % 16 = 15 ∧ hallEn s 15 ∧ 3 ∈ hallChildren s 15
        ∧ wbits p.w3 31 0 = (s.hallSlot 15).gen ∧ pCancel p = false
        ∧ (s.hallSlot 15).count + wbits p.w3 44 32 < hallSubtree s 15
        ∧ out (.knotArrive 3 p) s (fun t => (t.hallSlot 15).count = 3 ∧ (t.hallSlot 15).pending))
    ∧ (let p := pktFor 0x0C 0 8 15 4 [];
      let s := rxIs p ((ready.setReg .knot (0x600 + 16 * 15) 1).setHallSlot 15 { gen := 4, count := 1, mask := [5] });
      arrived s 3 p 0x0C ∧ hallEn s 15 ∧ wbits p.w3 31 0 = (s.hallSlot 15).gen ∧ hallChildren s 15 = []
        ∧ hallBound s 15 = none ∧ (s.page .knot).pend = []
        ∧ out (.knotRelease 3 p) s (fun t => t.hallSlot 15 = { mask := [5], gen := 5 }))
    ∧ (let p := pktFor 0x0C 0 8 15 4 [];
      let s := rxIs p (((knotted { mask := [70, 71], gen := 7, arrived := [70, 71], bound := true }).setReg .knot
        (0x600 + 16 * 15) (1 + 2 ^ 8 + 63 * 4)).setHallSlot 15 { gen := 4, count := 1, mask := [5] });
      hallBound s 15 = some 63 ∧ pCancel p = false ∧ chipRelEn s 63 = false ∧ (s.chipSlot 63).mask.Nodup
        ∧ (s.page .knot).pend = [] ∧ (∀ d ∈ (s.chipSlot 63).mask, (s.polder (polderOf d)).state = 0)
        ∧ out (.knotRelease 3 p) s (fun t => (t.chipSlot 63).gen = 8 ∧ (t.core 71).seen = 2 ^ 63
          ∧ (t.hallSlot 15).gen = 5)) := by
  unfold arrived; decide +kernel

theorem witness_OtherPackets_bad :
    (let p := pktFor 0x01 (sramAddr 70 0xFFF) 2 0 0 [];
      let s := rxIs p ready;
      s.settled ∧ s.live ∧ s.bankFinds = [] ∧ (rxHalf s 3 p).isSome ∧ packetTurn s 3 p ∧ pOpc p = 0x01
        ∧ pDst p = s.deviceId ∧ malformed p = true
        ∧ out (.read 3 p []) s (fun t => answered t = [(7, evFabFormat, 0, [0#8])] ∧ (t.link 3 0).rx = []
          ∧ (t.evt.inputs.flatMap id).map (·.code) = [evFabFormat]))
    ∧ (let p := mkPacket 0x01 false none 9 3 (sramAddr 70 0x40) 2 7 0 0 false 0 [];
      let s := rxIs p ready;
      malformed p = false ∧ pDst p ≠ s.deviceId ∧ pSrc p ≠ s.deviceId ∧ (rxHalf s 3 p).isSome ∧ packetTurn s 3 p
        ∧ out (.read 3 p []) s (fun t => (t.link 3 0).flight.map (·.2) = [bumpHops p] ∧ (t.link 3 0).rx = [])) := by
  decide +kernel

/-- Core 70 waits for the answer to a load of 8 bytes from device 9 that left as request 7 at tick t0, beside request 8. -/
def asks (p : Packet) (t0 : Nat) (k : Cont := .toReg 70 5 8 true) : State :=
  let s := rxIs p (coreIs 70 { stw := { st := .run, wait := .access 4 0 5, csr := [(0x305, 0x400)] } })
  { s with fab := { s.fab with outs := [⟨8, 9, 0x01, 999999, .host 3, 0, false, .none, none⟩,
                                        ⟨7, 9, 0x01, t0, .steward 70, 0x40, false, k, none⟩] } }

/-- Tree 3 of a device takes part in writes on port 3 and, or not, writes itself; the descriptor of a fan-out stands at
offset 0x100 of core 70's SRAM. -/
def treeIs (cfg : Nat) (w : List Nat) (p : List Packet) : State :=
  let s := ((ready.setPort 3 { link0 := { state := 3, neighbour := some (9, 4), credits := [512, 768, 384, 256, 128], rx := p } }).setReg
    .chip 0x100 5).setReg .fab (0x200 + 8 * 3) cfg
  { s with mem := Mem.write [] (sramAddr 70 0x100) (w.flatMap fun v => leBytes 8 v) }

/-! ## The FAB page -/

theorem witness_FabricUnit_response :
    let p := mkPacket 0x1F false none 5 9 0x40 8 7 0 0 false 0 (leBytes 8 77);
    let s := asks p 999990;
    s.settled ∧ s.live ∧ s.bankFinds = [] ∧ arrived s 3 p 0x1F ∧ s.fab.gateway = [] ∧ s.fab.repin = [] ∧ pStatus p = 0
      ∧ s.fab.outs.find? (fun x => x.id == pReqId p) = some ⟨7, 9, 0x01, 999990, .steward 70, 0x40, false, .toReg 70 5 8 true, none⟩
      ∧ out (.response 3 p) s (fun t => (t.core 70).stw.get 5 = 77 ∧ (t.core 70).stw.wait = .nothing
        ∧ t.fab.outs.map (·.id) = [8])
      ∧ (let q := mkPacket 0x1F false none 5 9 0x40 8 6 0 0 false 0 (leBytes 8 77);
        arrived (asks q 999990) 3 q 0x1F ∧ (∀ o ∈ (asks q 999990).fab.outs, o.id ≠ pReqId q)
          ∧ out (.response 3 q) (asks q 999990) (fun t => t.fab = (asks q 999990).fab ∧ (t.link 3 0).rx = [])) := by
  unfold arrived; decide +kernel

theorem witness_FabricUnit_timeout :
    (let s := asks readPkt 599990 .signal;
      s.settled ∧ s.live ∧ requestOverdue s 7 ∧ requestOverdue s 8 = false ∧ s.fab.gateway = [] ∧ s.fab.repin = []
        ∧ out (.fabTimeout 7) s (fun t => t.fab.outs.map (·.id) = [8]
          ∧ (t.evt.inputs.flatMap id).map (·.code) = [evFabTimeout]))
    ∧ (let s := asks readPkt 599990;
      (s.core 70).stw.csrVal 0x305 ≠ 0 ∧ (s.core 70).stw.wait = .access 4 0 5 ∧ requestOverdue s 7
        ∧ out (.fabTimeout 7) s (fun t => (t.core 70).stw.csrVal 0x7C1 = evFabTimeout ∧ (t.core 70).stw.pc = 0x400
          ∧ t.fab.outs.map (·.id) = [8])) := by decide +kernel

/-- The CRC's register stays 0 over zeros, so that of an image FFFFFFFF, 0, 0, ... is known. -/
theorem crc_zeros : ∀ n, (List.replicate n (0#8 : Byte)).foldl crcByte 0 = 0
  | 0 => rfl
  | n + 1 => by rw [List.replicate_succ, List.foldl_cons]; exact crc_zeros n

/-- Nothing listed below an address reads as zeros. -/
theorem readFrom_gap (b : Nat) (v : Byte) (r : Mem) (n : Nat) : ∀ k a, a + k ≤ b →
    Mem.readFrom ((b, v) :: r) a (k + n) = List.replicate k 0#8 ++ Mem.readFrom ((b, v) :: r) (a + k) n
  | 0, a, _ => by rw [Nat.zero_add]; rfl
  | k + 1, a, h => by
    rw [show k + 1 + n = (k + n) + 1 by omega, Mem.readFrom, if_neg (by omega), readFrom_gap b v r n k (a + 1) (by omega),
      show a + 1 + k = a + (k + 1) by omega]
    rfl

/-- A routing image at offset 0x100 of core 70's SRAM: FFFFFFFF, then zeros, then its CRC. -/
def imaged : State :=
  { ready with mem := (Mem.write [] (sramAddr 70 0x100) (leBytes 4 0xFFFFFFFF)).write (sramAddr 70 0x4100) (leBytes 4 0xFFFFFFFF) }

theorem readFrom_four (a m : Nat) (v : Byte) (r : Mem) :
    Mem.readFrom ((a, v) :: (a + 1, v) :: (a + 1 + 1, v) :: (a + 1 + 1 + 1, v) :: r) a (m + 4)
      = v :: v :: v :: v :: Mem.readFrom r (a + 1 + 1 + 1 + 1) m := by
  simp only [Mem.readFrom, if_true]

theorem image_read_of (a k : Nat) (v : Byte) (m : Mem)
    (h : m.dropWhile (fun c => decide (c.1 < a)) = (a, v) :: (a + 1, v) :: (a + 1 + 1, v) :: (a + 1 + 1 + 1, v)
      :: (let b := a + 4 + k; [(b, v), (b + 1, v), (b + 1 + 1, v), (b + 1 + 1 + 1, v)])) :
    m.read a (k + 4 + 4) = [v, v, v, v] ++ (List.replicate k 0#8 ++ [v, v, v, v]) := by
  rw [Mem.read, h, readFrom_four, readFrom_gap _ _ _ 4 k _ (by omega), show a + 1 + 1 + 1 + 1 + k = a + 4 + k by omega,
    show (4 : Nat) = 0 + 4 by rfl, readFrom_four]
  rfl

theorem image_read : imaged.mem.read (sramAddr 70 0x100) 16388
    = leBytes 4 0xFFFFFFFF ++ (List.replicate 16380 0#8 ++ leBytes 4 0xFFFFFFFF) :=
  image_read_of (sramAddr 70 0x100) 16380 0xFF#8 imaged.mem (by decide +kernel)

theorem witness_FabricUnit_image :
    imaged.settled ∧ imaged.live ∧ imaged.bankFinds = [] ∧ mayWrite imaged tmp .fab 0x108 (word (sramAddr 70 0x100)).toNat
      ∧ bits (word (sramAddr 70 0x100)).toNat 39 0 = sramAddr 70 0x100
      ∧ homeOf imaged (sramAddr 70 0x100) = .sram 70 (sramAddr 70 0x100) ∧ memMapped imaged (sramAddr 70 0x100) 16388
      ∧ sramAddr 70 0x100 % 64 = 0 := by
  unfold mayWrite mayStore; decide +kernel

theorem witness_FabricUnit_image_good :
    let image := imaged.mem.read (sramAddr 70 0x100) 16388;
    crc32c (image.take 16384) = leNat (image.drop 16384) ∧ ∀ b ∈ (image.take 16384).drop 16380, b = 0#8 := by
  have len : (leBytes 4 0xFFFFFFFF ++ List.replicate 16380 (0#8 : Byte)).length = 16384 := by
    rw [List.length_append, List.length_replicate]; rfl
  intro image
  have e : image = (leBytes 4 0xFFFFFFFF ++ List.replicate 16380 0#8) ++ leBytes 4 0xFFFFFFFF := by
    rw [List.append_assoc]; exact image_read
  rw [e, List.take_left' len, List.drop_left' len]
  refine ⟨?_, fun b hb => ?_⟩
  · rw [crc32c, List.foldl_append, show (leBytes 4 0xFFFFFFFF).foldl crcByte 0xFFFFFFFF = 0 by decide +kernel, crc_zeros]
    decide +kernel
  · rw [List.drop_append, List.drop_eq_nil_of_le (as := leBytes 4 0xFFFFFFFF) (by decide), List.nil_append] at hb
    exact List.eq_of_mem_replicate (List.mem_of_mem_drop hb)

theorem witness_FabricUnit_route :
    (let v : Word := word (sramAddr 70 0x104);
      ready.settled ∧ ready.live ∧ ready.bankFinds = [] ∧ mayWrite ready tmp .fab 0x108 v.toNat
        ∧ bits v.toNat 39 0 = sramAddr 70 0x104 ∧ homeOf ready (sramAddr 70 0x104) = .sram 70 (sramAddr 70 0x104)
        ∧ memMapped ready (sramAddr 70 0x104) 16388 ∧ sramAddr 70 0x104 % 64 ≠ 0
        ∧ out (.fabRouteLoad tmp v) ready (fun t => t.fab.routeState = 2 ∧ t.fab.route = []
          ∧ (t.evt.inputs.flatMap id).map (·.code) = [evFabCfgBad])) := by
  unfold mayWrite mayStore; decide +kernel

theorem witness_FabricUnit_mirror :
    let s := { ready with fab := { ready.fab with suspended := [3, 7] } };
    mayWrite s tmp .fab 0x408 0x17 ∧ bits 0x17 5 4 = 1 ∧ bits 0x27 5 4 ≠ 1 ∧ mayWrite s tmp .fab 0x408 0x27
      ∧ out (.fabMirrorCmd tmp 0x17) s (fun t => t.fab.suspended = [3])
      ∧ out (.fabMirrorCmd tmp 0x27) s (fun t => t.fab.suspended = [3, 7]) := by
  unfold mayWrite mayStore; decide +kernel

theorem witness_FanOut_command :
    (let v : Word := word (sramAddr 70 0x100);
      mayWrite ready tmp .fab 0x118 v.toNat ∧ bits v.toNat 39 0 % 32 = 0
        ∧ out (.fabFanoutCmd tmp v) ready (fun t => t.fab.fanQueue = [sramAddr 70 0x100])
        ∧ (let s := { ready with fab := { ready.fab with fanQueue := List.replicate 16 0 } };
          mayWrite s tmp .fab 0x118 v.toNat ∧ 16 ≤ s.fab.fanQueue.length + b2n s.fab.fanRun.isSome
            ∧ out (.fabFanoutCmd tmp v) s (fun t => t.fab = s.fab ∧ (t.evt.inputs.flatMap id).map (·.code) = [evFabFormat])))
    ∧ (let v : Word := word (sramAddr 70 0x110);
      mayWrite ready tmp .fab 0x118 v.toNat ∧ bits v.toNat 39 0 % 32 ≠ 0
        ∧ out (.fabFanoutCmd tmp v) ready (fun t => t.fab = ready.fab
          ∧ (t.evt.inputs.flatMap id).map (·.code) = [evFabFormat])) := by
  unfold mayWrite mayStore; decide +kernel

theorem witness_FanOut_descriptor :
    (let w := [sramAddr 70 0x200 + 3 * 2 ^ 40, sramAddr 71 0x200, 64, 0xFFF * 2 ^ 40 + sramAddr 70 0x300];
      let s := { treeIs (3 + 2 ^ 19) w [] with fab := { ready.fab with fanQueue := [sramAddr 70 0x100] } };
      s.settled ∧ s.live ∧ s.bankFinds = [] ∧ s.fab.fanRun = none ∧ (s.page .dist).pend = []
        ∧ homeOf s (sramAddr 70 0x100) = .sram 70 (sramAddr 70 0x100)
        ∧ barrier s ⟨.fanout, sramAddr 70 0x100, .none, 0xFFF⟩ (.load 32 false) = .clear
        ∧ (chunks 7 4 (s.mem.read (sramAddr 70 0x100) 32)).map leNat = w ∧ ¬ fanBad s w ∧ fanField w 2 26 0 = 64
        ∧ fanField w 1 39 0 % 4096 + 64 ≤ 4096 ∧ 1 ≤ s.hopLimit
        ∧ homeOf s (sramAddr 70 0x200) = .sram 70 (sramAddr 70 0x200)
          ∧ homeOf s (sramAddr 71 0x200) = .sram 71 (sramAddr 71 0x200)
        ∧ barrier s ⟨.fanout, sramAddr 70 0x200, .none, 0xFFF⟩ (.load 64 false) = .clear
        ∧ barrier s ⟨.fanout, sramAddr 71 0x200, .ack .fanout, 0xFFF⟩ (.store (s.mem.read (sramAddr 70 0x200) 64)) = .clear
        ∧ unwatched s (sramAddr 71 0x200) 64 ∧ shardOnly s 3 = false ∧ treePorts s 3 = [3]
        ∧ out .fanoutDescriptor s (fun t => t.fab.fanRun = some ⟨w, [3], true, 0, 64, false⟩ ∧ t.fab.outs.map (·.dst) = [9]
          ∧ (t.link 3 0).flight.map (fun f => (pOpc f.2, pAddr f.2, pLen f.2)) = [(0x0E, sramAddr 71 0x200, 64)]))
    ∧ (let w := [sramAddr 70 0x200 + 2 * 2 ^ 40, sramAddr 71 0x200, 64, 0];
      let s := { treeIs (3 + 2 ^ 19) w [] with fab := { ready.fab with fanQueue := [sramAddr 70 0x100, 32] } };
      fanBad s w ∧ (chunks 7 4 (s.mem.read (sramAddr 70 0x100) 32)).map leNat = w
        ∧ barrier s ⟨.fanout, sramAddr 70 0x100, .none, 0xFFF⟩ (.load 32 false) = .clear
        ∧ out .fanoutDescriptor s (fun t => t.fab.fanQueue = [32] ∧ t.fab.fanDone = 1 ∧ t.fab.fanErr = evFabFormat)) := by
  unfold unwatched; decide +kernel

theorem witness_FanOut_complete :
    (let r : FanRun := { words := [0, 0, 64, ownWord 0x208 - 0xFFF * 2 ^ 40 + 5 * 2 ^ 40 + 3 * 2 ^ 52], ports := [3], here := true, sent := 64 };
      let s := { treeIs 0 [] [] with fab := { ready.fab with fanRun := some r } };
      let hall := fanField r.words 3 51 0;
      s.settled ∧ s.live ∧ s.bankFinds = [] ∧ fanComplete s ∧ r.status = 0 ∧ fanField r.words 3 63 52 = 3
        ∧ signalWord s 70 hall 3 0x208 ∧ barrier s ⟨.fanout, localOf hall, .ack .fanout, devOf hall⟩ (.sync (.add 3)) = .clear
        ∧ out .fanoutComplete s (fun t => t.mem.read (sramAddr 70 0x208) 2 = [3#8, 0#8] ∧ t.fab.fanDone = 1
          ∧ t.fab.fanRun = none))
    ∧ (let r : FanRun := { words := [0, 0, 64, 0], ports := [3], here := true, sent := 0, status := evFabTimeout };
      let s := { treeIs 0 [] [] with fab := { ready.fab with fanRun := some r } };
      fanComplete s ∧ r.status ≠ 0
        ∧ out .fanoutComplete s (fun t => t.fab.fanDone = 1 ∧ t.fab.fanErr = evFabTimeout)) := by
  unfold signalWord unwatched; decide +kernel

theorem witness_FanOut_members :
    (let p := mkPacket 0x0E true none 5 9 (sramAddr 71 0x200) 4 7 0 3 false 0 [1#8, 2#8, 3#8, 4#8];
      let s := treeIs (3 + 2 ^ 19 + 2 ^ 20) [] [p];
      s.settled ∧ s.live ∧ s.bankFinds = [] ∧ arrived s 3 p 0x0E ∧ treeTakes s 3 p ∧ pHops p + 1 ≤ s.hopLimit
        ∧ p.data.length ≠ 8 ∧ homeOf s (pAddr p) = .sram 71 (sramAddr 71 0x200) ∧ unwatched s (pAddr p) p.data.length
        ∧ barrier s ⟨.device (pSrc p) 3, pAddr p, .ack (.relay 0), 0xFFF⟩ (.store p.data) = .clear
        ∧ out (.fanOutWrite 3 p) s (fun t => t.fab.relays = [⟨0, 3, 9, 7, 0⟩] ∧ t.mem.read (sramAddr 71 0x200) 2 = [1#8, 2#8]
          ∧ t.fab.outs.map (fun o => (o.via, o.cont)) = [(some 4, .ack (.relay 0))])
        ∧ ¬ treeTakes (treeIs 0 [] [p]) 3 p
        ∧ out (.fanOutWrite 3 p) (treeIs 0 [] [p]) (fun t => answered t = [(7, evFabFormat, 0, [0#8])] ∧ t.fab.relays = []
          ∧ (t.evt.inputs.flatMap id).map (·.code) = [evFabFormat]))
    ∧ (let s := { treeIs 0 [] [] with fab := { ready.fab with relays := [⟨2, 3, 9, 7, evFabTimeout⟩] } };
      relayDue s 2 ∧ s.fab.relays.find? (fun x => x.id == 2) = some ⟨2, 3, 9, 7, evFabTimeout⟩
        ∧ out (.fanOutAnswer 2) s (fun t => answered t = [(7, evFabTimeout, 0, [0#8])] ∧ t.fab.relays = [])) := by
  unfold arrived unwatched; decide +kernel

/-- Descriptor words of tag 7 of stack 11: one block accumulated at A000, reports at 40000, one contributor; its sheets stand
at 0x100, 0x200, 0x300 and its output at 0x1000 of core 70's SRAM; bits of word 0 and the signal may be given. -/
def tagWords (w0 : Nat := 0) (signal : Nat := 0) : List Nat :=
  [7 + w0 + 5 * 2 ^ 32, 0xB00000A000, 0xB000040000, 1, sramAddr 70 0x100, sramAddr 70 0x200, sramAddr 70 0x300,
    sramAddr 70 0x1000, signal, 0, 0, 0, 0, 0, 0, 0]

/-- Stack 11's splice unit with that tag as given, and partition lines of its accumulators. -/
def tagged (x : Tag) (part : List Line := []) : State :=
  (ready.setSplice 11 { tags := [x], part := part }).setReg (.msc 11) 0x100 0x20

/-- A splice packet from device 9 for that tag. -/
def splPkt (opc a : Nat) (data : List Byte) : Packet := mkPacket opc false none 5 9 a data.length 7 0 7 false 0 data

/-! ## The splice units -/

theorem witness_SpliceTags_open :
    let desc := sramAddr 70 0x500;
    let x : Tag := { tag := 7, words := tagWords };
    let s := { ready with mem := Mem.write [] desc (tagWords.flatMap (leBytes 8)) };
    s.settled ∧ s.live ∧ s.bankFinds = [] ∧ mayWrite s tmp (.spl 11) 0x100 desc ∧ bits desc 39 0 = desc
      ∧ homeOf s desc = .sram 70 desc ∧ memMapped s desc 128
      ∧ x.words = (chunks 7 16 (s.mem.read desc 128)).map leNat ∧ x = { tag := bits (x.w 0) 11 0, words := x.words }
      ∧ tagDescBad 11 x = false ∧ desc % 64 = 0
      ∧ out (.splTagOpen tmp 11 (word desc)) s (fun t => (t.splice 11).tags = [x])
      ∧ (let u := s.setSplice 11 { tags := [{ x with state := 5, received := 3 }] };
        mayWrite u tmp (.spl 11) 0x100 desc
          ∧ out (.splTagOpen tmp 11 (word desc)) u (fun t => (t.splice 11).tags = [x]))
      ∧ (let u := s.setSplice 11 { tags := [{ x with state := 6 }] };
        mayWrite u tmp (.spl 11) 0x100 desc
          ∧ out (.splTagOpen tmp 11 (word desc)) u (fun t => t.spl = u.spl
            ∧ (t.evt.inputs.flatMap id).map (·.code) = [evSpliceFormat]))
      ∧ (let u := s.setStack 11 { state := 2 };
        mayWrite u tmp (.spl 11) 0x100 desc ∧ (u.stack 11).state = 2
          ∧ out (.splTagOpen tmp 11 (word desc)) u (fun t =>
            (t.splice 11).tags = [{ x with state := 6, cause := evHbmStackRetired }]))
      ∧ (let u := s.setSplice 11 { tags := (upto 256).map fun i => { x with tag := 100 + i } };
        mayWrite u tmp (.spl 11) 0x100 desc ∧ 256 ≤ (u.splice 11).tags.length
          ∧ (∀ y ∈ (u.splice 11).tags, y.tag ≠ x.tag ∧ y.state ≠ 5)
          ∧ out (.splTagOpen tmp 11 (word desc)) u (fun t => t.spl = u.spl
            ∧ (t.evt.inputs.flatMap id).map (·.code) = [evSpliceFormat]))
      ∧ tagDescBad 10 x ∧ mayWrite s tmp (.spl 10) 0x100 desc
      ∧ out (.splTagOpen tmp 10 (word desc)) s (fun t => t.spl = s.spl
          ∧ (t.evt.inputs.flatMap id).map (·.code) = [evSpliceFormat])
      ∧ (desc + 8) % 64 ≠ 0 ∧ mayWrite s tmp (.spl 11) 0x100 (desc + 8)
      ∧ out (.splTagOpen tmp 11 (word (desc + 8))) s (fun t => t.spl = s.spl
          ∧ (t.evt.inputs.flatMap id).map (·.code) = [evSpliceFormat]) := by
  unfold mayWrite mayStore; decide +kernel

theorem witness_SpliceTags_zeroing :
    (let x : Tag := { tag := 7, words := tagWords };
      let s := tagged x;
      s.settled ∧ tagIn s 11 7 1 0 ∧ findTag s 11 7 = some x ∧ tagDescBad 11 x = false ∧ tagPages s x = none
        ∧ (s.splice 11).part.length + 64 * x.blocks ≤ partRoom s 11
        ∧ out (.zeroingComplete 11 7) s (fun t => findTag t 11 7 = some { x with
            state := 2, expect := 4100, t0 := s.now } ∧ (t.splice 11).part.length = 64)
        ∧ (let u := { s with pres := { absent := [0xB000000000 / 0x200000] } };
          tagPages u x = some 0xB00000A000 ∧ out (.zeroingComplete 11 7) u (fun t =>
            findTag t 11 7 = some { x with state := 6, cause := evPageAbsent } ∧ t.mem = u.mem))) := by decide +kernel

theorem witness_SpliceTags_ends :
    (let x : Tag := { tag := 7, words := tagWords, state := 2, t0 := 5, received := 9 };
      let s := (tagged x).setReg (.spl 11) 0x150 1000;
      s.settled ∧ s.live ∧ tagOverdue s 11 7
        ∧ out (.spliceTimeout 11 7) s (fun t => findTag t 11 7 = some { x with late := true }
          ∧ (t.evt.inputs.flatMap id).map (·.code) = [evSpliceTimeout])
        ∧ mayWrite s tmp (.spl 11) 0x108 0x10007 ∧ bits 0x10007 17 16 = 1 ∧ bits 0x10007 11 0 = 7
        ∧ out (.spliceAbort tmp 11 0x10007) s (fun t => findTag t 11 7 = none))
    ∧ (let x : Tag := { tag := 7, words := tagWords, state := 3 };
      mayWrite (tagged x) tmp (.spl 11) 0x108 0x10007
        ∧ out (.spliceAbort tmp 11 0x10007) (tagged x) (fun t => findTag t 11 7 = some { x with abort := true })) := by
  unfold mayWrite mayStore; decide +kernel

theorem witness_SplicePackets_refused :
    (let p := splPkt 0x03 0xB00000A000 [1#8, 0#8, 0#8, 0#8];
      let x : Tag := { tag := 7, words := tagWords, state := 2, expect := 4100, received := 4097 };
      let s := rxIs p (tagged x);
      s.settled ∧ s.live ∧ homeOf s (pAddr p) = .hbm (pAddr p) ∧ pAddr p / 0x1000000000 = 11 ∧ spliceWaits s 3 p = false
        ∧ arrived s 3 p 0x03 ∧ ¬ outsideTag x false (pAddr p) p.data.length ∧ findTag s 11 (pAux p) = some x
        ∧ x.expect < x.received + p.data.length ∧ eligible s (pSrc p) ≠ [] ∧ 1 ≤ s.hopLimit
        ∧ out (.spliceAcc 3 p) s (fun t => answered t = [(7, evSpliceCount, 0, [0#8])]
          ∧ findTag t 11 7 = some { x with state := 6, cause := evSpliceCount })
        ∧ (let u := rxIs p ready;
          arrived u 3 p 0x03 ∧ spliceWaits u 3 p = false ∧ findTag u 11 (pAux p) = none
            ∧ out (.spliceAcc 3 p) u (fun t => answered t = [(7, evSpliceTagBad, 0, [0#8])]
              ∧ (t.evt.inputs.flatMap id).map (·.code) = [evSpliceTagBad])))
    ∧ (let p := splPkt 0x03 (pageBase (.core 70) + 0x20) [1#8, 0#8, 0#8, 0#8];
      let s := rxIs p ready;
      homeOf s (pAddr p) = .ctrl 70 0x20 ∧ arrived s 3 p 0x03
        ∧ out (.spliceAcc 3 p) s (fun t => answered t = [(7, evAddrProtected, 0, [0#8])]
          ∧ t.spl = s.spl)) := by unfold arrived; decide +kernel

theorem witness_SplicePackets_done :
    (let p := splPkt 0x03 0xB00000A008 [0xFF#8, 0xFF#8, 0xFF#8, 0xFF#8];
      let x : Tag := { tag := 7, words := tagWords, state := 2, expect := 4100, received := 4096 };
      let l : Line := ⟨0xA000 / 128, false, false, [], (List.replicate 8 0#8 ++ leBytes 8 3) ++ List.replicate 112 0#8⟩;
      let s := rxIs p (tagged x [l]);
      s.settled ∧ s.live ∧ spliceWaits s 3 p = false ∧ arrived s 3 p 0x03 ∧ ¬ outsideTag x false (pAddr p) p.data.length
        ∧ x.received + p.data.length ≤ x.expect ∧ anyAbsent s (pAddr p) 8 = false ∧ pAddr p % 128 + 8 ≤ 128
        ∧ (s.splice 11).part.length ≤ partRoom s 11
        ∧ (s.splice 11).part.find? (fun m => m.idx == pAddr p % 0x1000000000 / 128) = some l
        ∧ out (.spliceAcc 3 p) s (fun t => answered t = [(7, 0, 0, [0#8])]
          ∧ (t.splice 11).part.map (fun m => (m.dirty, (m.data.drop 8).take 9)) = [(true, leBytes 8 2 ++ [0#8])]
          ∧ findTag t 11 7 = some { x with state := 3, received := 4100, finAt := some 1000000 }))
    ∧ (let p := splPkt 0x04 0xB000040000 [5#8, 0#8, 0#8, 0#8];
      let x : Tag := { tag := 7, words := tagWords, state := 2, expect := 4100 };
      let s := rxIs p { tagged x with mem := Mem.write [] 0xB000040000 (leBytes 4 0xFFFFFFF0) };
      s.settled ∧ s.live ∧ spliceWaits s 3 p = false ∧ arrived s 3 p 0x04 ∧ ¬ outsideTag x true (pAddr p) p.data.length
        ∧ (∀ l ∈ (s.stack 11).lines, l.idx ≠ pAddr p % 0x1000000000 / 128)
        ∧ anyAbsent s (pAddr p) 4 = false
        ∧ s.peek (pAddr p) 4 = leBytes 4 0xFFFFFFF0 ∧ hbmBadSector s (pAddr p) 4 = none
        ∧ unitHeld s 11 (pAddr p) 4 = false ∧ s.mem.wf ∧ (s.stack 11).upsets = []
        ∧ out (.spliceMax 3 p) s (fun t => answered t = [(7, 0, 0, [0#8])] ∧ findTag t 11 7 = some { x with received := 4 }
          ∧ t.peek 0xB000040000 4 = [5#8, 0#8, 0#8, 0#8])) := by unfold arrived; decide +kernel

/-- The tag before its verdict, with report m, and exponent e in its sheet. -/
def beforeVerdict (w0 m : Nat) (e : Byte) : State :=
  { tagged { tag := 7, words := tagWords w0, state := 3 } with
    mem := (Mem.write [] 0xB000040000 (leBytes 4 m)).write (sramAddr 70 0x140) [e, 0#8] }

theorem witness_VerdictAndReadOut_verdict :
    let x : Tag := { tag := 7, words := tagWords, state := 3 };
    let s := beforeVerdict 0 30 0#8;
    let es := (chunks 1 x.blocks (s.mem.read (bits (x.w 4) 39 0 + 64) (2 * x.blocks))).map (fun e => sext (nth 0#8 e 0).toNat 8);
    let ms := (chunks 3 x.blocks (hbmRead x.maxBase (4 * x.blocks) .stream s).1.1).map leNat;
    let sheet := sheetBytes s x 1 ((x.step + 1) % 2 ^ 32)
      ((upto x.blocks).map fun b => (nextExp (nth 0 ms b) (nth 0 es b), 0));
    s.settled ∧ tagIn s 11 7 3 0 ∧ findTag s 11 7 = some x ∧ tagDescBad 11 x = false ∧ tagPages s x = none
      ∧ (∀ l ∈ (s.splice 11).part, l.dirty = false) ∧ s.bankFinds = [] ∧ x.marks = []
      ∧ (hbmRead x.maxBase (4 * x.blocks) .stream s).1.2 = none
        ∧ homeOf s (bits (x.w 4) 39 0 + 64) = .sram 70 (sramAddr 70 0x140)
      ∧ barrier s ⟨x.who 11, bits (x.w 4) 39 0 + 64, .none, 0xFFF⟩ (.load (2 * x.blocks) false) = .clear
      ∧ ms = [30] ∧ es = [0] ∧ (upto x.blocks).map (fun b => verdictOf (nth 0 ms b) (nth 0 es b)) = [0]
      ∧ homeOf s (bits (x.w 5) 39 0) = .sram 70 (sramAddr 70 0x200) ∧ unwatched s (bits (x.w 5) 39 0) sheet.length
      ∧ barrier s ⟨x.who 11, bits (x.w 5) 39 0, .ack (.tag 11 7), 0xFFF⟩ (.store sheet) = .clear
      ∧ bit (x.w 0) 16 = false
      ∧ out (.verdict 11 7) s (fun t => findTag t 11 7 = some { x with marks := [0], exps := [0], phase := 1 }
        ∧ t.mem.read (sramAddr 70 0x240) 2 = [3#8, 0#8]) := by unfold unwatched; decide +kernel

theorem witness_VerdictAndReadOut_round2 :
    let x : Tag := { tag := 7, words := tagWords, state := 3 };
    let s := beforeVerdict 0 31 0#8;
    let sheet := sheetBytes s x 1 ((x.step + 1) % 2 ^ 32) [(nextExp 31 0, 0)];
    let sheet2 := sheetBytes s x 2 x.step [(4, 1)];
    s.settled ∧ tagIn s 11 7 3 0 ∧ findTag s 11 7 = some x ∧ tagPages s x = none
      ∧ verdictOf 31 0 = 1 ∧ x.abort = false ∧ bits (x.w 9) 63 52 = 0
        ∧ homeOf s (bits (x.w 6) 39 0) = .sram 70 (sramAddr 70 0x300)
      ∧ min (sext 31 32 - 27) 127 = 4 ∧ unwatched s (bits (x.w 6) 39 0) sheet2.length
      ∧ barrier s ⟨x.who 11, bits (x.w 6) 39 0, .ack (.tag 11 7), 0xFFF⟩ (.store sheet2) = .clear
      ∧ unwatched s (bits (x.w 5) 39 0) sheet.length
      ∧ barrier s ⟨x.who 11, bits (x.w 5) 39 0, .ack (.tag 11 7), 0xFFF⟩ (.store sheet) = .clear
      ∧ out (.verdict 11 7) s (fun t => findTag t 11 7 = some { x with
          state := 4, expect := 4096, marks := [1], t0 := s.now, exps := [4] }
        ∧ (t.evt.inputs.flatMap id).map (·.code) = [evSpliceResplice]) := by unfold unwatched; decide +kernel

/-- The tag at its read-out, its accumulator in the partition. -/
def atReadOut : Tag := { tag := 7, words := tagWords (2 ^ 16), state := 3, marks := [1], exps := [-128] }
def accLine (i : Nat) : Line := ⟨0xA000 / 128 + i, false, false, [], leBytes 8 (3 * 2 ^ 60) ++ List.replicate 120 0#8⟩

theorem witness_VerdictAndReadOut_readOut :
    let s := tagged atReadOut ((upto 64).map accLine);
    s.settled ∧ tagIn s 11 7 3 0 ∧ findTag s 11 7 = some atReadOut ∧ tagPages s atReadOut = none ∧ atReadOut.marks ≠ []
      ∧ bit (atReadOut.w 0) 16 = true ∧ atReadOut.blocks = 1 ∧ tagDescBad 11 atReadOut = false
      ∧ (∀ l ∈ (s.splice 11).part, l.dirty = false) ∧ s.bankFinds = []
      ∧ (∀ i ∈ upto 64, (s.splice 11).part.find? (fun l => l.idx == atReadOut.acc % 0x1000000000 / 128 + i) = some (accLine i))
      ∧ homeOf s (bits (atReadOut.w 7) 39 0) = .sram 70 (sramAddr 70 0x1000)
      ∧ anyAbsent s (bits (atReadOut.w 7) 39 0) 4096 = false
      ∧ readOutBlock atReadOut 0 [3 * 2 ^ 60, 0] = (leBytes 4 ((127 + 61 - 128) * 2 ^ 23 + 2 ^ 22) ++ leBytes 4 0, 0) := by
  decide +kernel

/-- Whatever 4,096 bytes the read-out makes, nothing stands in the way of their write. -/
theorem witness_VerdictAndReadOut_readOut_write (bs : List Byte) (h : bs.length = 4096) :
    let s := tagged atReadOut ((upto 64).map accLine);
    barrier s ⟨atReadOut.who 11, bits (atReadOut.w 7) 39 0, .ack (.tag 11 7), 0xFFF⟩ (.store bs) = .clear
      ∧ unwatched s (bits (atReadOut.w 7) 39 0) bs.length := by
  intro s
  refine ⟨barrier_sram (c := 70) (a := sramAddr 70 0x1000) (by decide +kernel) ?_ (by decide +kernel), nofun, nofun, ?_⟩
  · rw [show accLen (.store bs) = 4096 from h]; decide +kernel
  · rw [h]; decide +kernel

theorem witness_VerdictAndReadOut_done :
    (let x : Tag := { tag := 7, words := tagWords, state := 3, phase := 1, marks := [0] };
      let s := tagged x;
      s.settled ∧ tagIn s 11 7 3 1 ∧ s.owes (· == .tag 11 7) = false ∧ findTag s 11 7 = some x ∧ s.bankFinds = []
        ∧ bits (x.w 8) 63 52 = 0 ∧ bit (x.w 0) 17 = false
        ∧ out (.readOutComplete 11 7) s (fun t => findTag t 11 7 = some { x with state := 5 })
        ∧ (let u := tagged { x with abort := true };
          tagIn u 11 7 3 1 ∧ u.owes (· == .tag 11 7) = false
            ∧ out (.readOutComplete 11 7) u (fun t => findTag t 11 7 = none)))
    ∧ (let x : Tag := { tag := 7, words := put (tagWords (2 ^ 17)) 10 (9 * 2 ^ 40), state := 3, phase := 1, marks := [0] };
      let s := tagged x;
      tagIn s 11 7 3 1 ∧ bits (x.w 8) 63 52 = 0 ∧ bit (x.w 0) 17 ∧ (remoteOf s (bits (x.w 10) 51 0)).isSome
        ∧ out (.readOutComplete 11 7) s (fun t => findTag t 11 7 = some { x with
            state := 6, cause := evAddrProtected, phase := 0 }
          ∧ (t.evt.inputs.flatMap id).map (·.code) = [evAddrProtected]))
    ∧ (let x : Tag := { tag := 7, words := tagWords 0 (ownWord 0x208 + 9 * 2 ^ 52), state := 3, phase := 1, marks := [0] };
      let s := tagged x;
      tagIn s 11 7 3 1 ∧ bits (x.w 8) 63 52 = 9 ∧ signalWord s 70 (bits (x.w 8) 51 0) 9 0x208
        ∧ barrier s ⟨x.who 11, localOf (bits (x.w 8) 51 0), .ack (.tag 11 7), devOf (bits (x.w 8) 51 0)⟩ (.sync (.add 9)) = .clear
        ∧ out (.readOutComplete 11 7) s (fun t => findTag t 11 7 = some { x with state := 5, phase := 2 }
          ∧ t.mem.read (sramAddr 70 0x208) 2 = [9#8, 0#8])) := by unfold signalWord unwatched; decide +kernel

/-- Stack 11's send engine with a descriptor at offset 0x500 of core 70's SRAM, whose sheet stands at 0x600: one block, source
at B000000000; step and round of the descriptor, head word and mark of the sheet. -/
def sending (w3 head mark : Nat) : State :=
  { ready.setSplice 11 { sends := [sramAddr 70 0x500] } with
    mem := (Mem.write [] (sramAddr 70 0x500) ([0xB000000000, sramAddr 70 0x600, 0x4000, w3, 0, 0, 0, 0].flatMap (leBytes 8))).write
      (sramAddr 70 0x600) ([head, 0x1000, 0x8000, 1, 0, 0, 0, 0].flatMap (leBytes 8) ++ [3#8, (BitVec.ofNat 8 mark)]) }

/-- What a witness about the send engine shows of it before the sheet is looked at. -/
abbrev sends (s : State) (w : List Nat) : Prop :=
  s.settled ∧ s.live ∧ s.bankFinds = [] ∧ (s.splice 11).send = none ∧ (s.splice 11).sends = [sramAddr 70 0x500]
    ∧ homeOf s (sramAddr 70 0x500) = .sram 70 (sramAddr 70 0x500)
    ∧ barrier s ⟨.sender 11, sramAddr 70 0x500, .none, 0xFFF⟩ (.load 64 false) = .clear
    ∧ w = (chunks 7 8 (s.mem.read (sramAddr 70 0x500) 64)).map leNat

/-- And of the sheet. -/
abbrev sheeted (s : State) (w : List Nat) : Prop :=
  ¬ sendBad 11 w ∧ bits (nth 0 w 1) 39 0 = sramAddr 70 0x600 ∧ homeOf s (sramAddr 70 0x600) = .sram 70 (sramAddr 70 0x600)
    ∧ bits (nth 0 w 2) 13 0 = 0 ∧ bits (nth 0 w 2) 28 14 = 1 ∧ homeOf s (sramAddr 70 0x640) = .sram 70 (sramAddr 70 0x640)
    ∧ barrier s ⟨.sender 11, sramAddr 70 0x600, .none, 0xFFF⟩ (.load 64 false) = .clear
    ∧ barrier s ⟨.sender 11, sramAddr 70 0x640, .none, 0xFFF⟩ (.load 2 false) = .clear

/-- Stack 11's auxiliary commands, with a descriptor at offset 0x500 of core 70's SRAM and a mask at 0x600. -/
def auxIs (w : List Nat) : State :=
  { ready with mem := (Mem.write [] (sramAddr 70 0x500) (w.flatMap (leBytes 8))).write (sramAddr 70 0x600) [2#8] }

/-! ## The send engine and the auxiliary commands -/

theorem witness_SendEngine_command :
    mayWrite ready tmp (.spl 11) 0x138 (word (sramAddr 70 0x500)).toNat
      ∧ bits (word (sramAddr 70 0x500)).toNat 39 0 % 64 = 0
      ∧ out (.splSendCmd tmp 11 (word (sramAddr 70 0x500))) ready (fun t => (t.splice 11).sends = [sramAddr 70 0x500])
      ∧ mayWrite ready tmp (.spl 11) 0x138 8
      ∧ out (.splSendCmd tmp 11 8) ready (fun t => t.spl = ready.spl
        ∧ (t.evt.inputs.flatMap id).map (·.code) = [evSpliceFormat])
      ∧ (let s := ready.setSplice 11 { sends := List.replicate 16 0 };
        mayWrite s tmp (.spl 11) 0x138 64 ∧ 16 ≤ (s.splice 11).sends.length + b2n (s.splice 11).send.isSome
          ∧ out (.splSendCmd tmp 11 64) s (fun t => t.spl = s.spl
            ∧ (t.evt.inputs.flatMap id).map (·.code) = [evSpliceFormat])) := by unfold mayWrite mayStore; decide +kernel

theorem witness_SendEngine_refused :
    (let s := sending (3 * 2 ^ 32) 0 0;
      let w := (chunks 7 8 (s.mem.read (sramAddr 70 0x500) 64)).map leNat;
      sends s w ∧ sendBad 11 w
        ∧ out (.sendDescriptor 11) s (fun t => t.splice 11 = { sendDone := 1, sendErr := evSpliceFormat }
          ∧ (t.evt.inputs.flatMap id).map (·.code) = [evSpliceFormat]))
    ∧ (let s := sending (5 + 2 ^ 32) (9 + 2 ^ 24 + 6 * 2 ^ 32) 0;
      let w := (chunks 7 8 (s.mem.read (sramAddr 70 0x500) 64)).map leNat;
      sends s w ∧ sheeted s w
        ∧ bits (leNat ((s.mem.read (sramAddr 70 0x600) 64).take 8)) 63 32 ≠ bits (nth 0 w 3) 31 0
        ∧ out (.sendDescriptor 11) s (fun t => t.splice 11 = { sendDone := 1, sendErr := evSpliceSheetBad }
          ∧ (t.evt.inputs.flatMap id).map (·.code) = [evSpliceSheetBad]))
    ∧ (let s := sending (5 + 2 * 2 ^ 32) (9 + 2 * 2 ^ 24 + 5 * 2 ^ 32) 2;
      let w := (chunks 7 8 (s.mem.read (sramAddr 70 0x500) 64)).map leNat;
      let head := s.mem.read (sramAddr 70 0x600) 64;
      sends s w ∧ sheeted s w ∧ bits (nth 0 w 3) 33 32 = 2 ∧ bits (leNat (head.take 8)) 63 32 = bits (nth 0 w 3) 31 0
        ∧ bits (leNat (head.take 8)) 25 24 = 2 ∧ 0 + 1 ≤ bits (leNat ((head.drop 24).take 8)) 14 0
        ∧ (nth 0#8 (s.mem.read (sramAddr 70 0x640) 2) 1).toNat ≠ 1
        ∧ out (.sendDescriptor 11) s (fun t => t.splice 11 = { send := some { words := w, head := head } } ∧ t.sent = [])) := by
  decide +kernel

/-- A block goes to device 9, whose link has no credits left. -/
def sendsBlock : State :=
  let s := ((sending (5 + 2 ^ 32) (9 + 9 * 2 ^ 12 + 2 ^ 24 + 5 * 2 ^ 32) 0).setPort 3
    { link0 := { upLink with credits := [0, 0, 0, 0, 0] } }).setReg .chip 0x100 5
  { s with fab := { s.fab with route := [(9, 8)] } }

theorem witness_SendEngine_sends :
    let s := sendsBlock;
    let w := (chunks 7 8 (s.mem.read (sramAddr 70 0x500) 64)).map leNat;
    let head := s.mem.read (sramAddr 70 0x600) 64;
    let data := contribution w 0 3 ((chunks 3 1024 (hbmRead 0xB000000000 4096 .ordinary s).1.1).map leNat);
    let u := request (.sender 11) 0x03 9 0x1000 data.1.length 9 0 data.1 false none (.ack (.sender 11)) s;
    let u' := request (.sender 11) 0x04 9 0x8000 4 9 0 (leBytes 4 0) false none (.ack (.sender 11)) u;
    sends s w ∧ sheeted s w ∧ bits (nth 0 w 3) 33 32 = 1 ∧ bits (leNat (head.take 8)) 63 32 = bits (nth 0 w 3) 31 0
      ∧ bits (leNat (head.take 8)) 25 24 = 1 ∧ 0 + 1 ≤ bits (leNat ((head.drop 24).take 8)) 14 0
      ∧ (nth 0#8 (s.mem.read (sramAddr 70 0x640) 2) 1).toNat = 0 ∧ bits (leNat (head.take 8)) 23 12 = 9 ∧ 9 ≠ s.deviceId
      ∧ bits (nth 0 w 0) 39 0 = 0xB000000000 ∧ homeOf s 0xB000000000 = .hbm 0xB000000000
      ∧ barrier s ⟨.sender 11, 0xB000000000, .none, 0xFFF⟩ (.load 4096 false) = .clear
      ∧ (hbmRead 0xB000000000 4096 .ordinary s).1.2 = none ∧ u'.answers = []
      ∧ (u'.link 3 0).queue.map (fun q => (pOpc q.pkt, pLen q.pkt)) = [(0x03, 4096), (0x04, 4)]
      ∧ contribution w 0 3 [0x41400000, 0x7F800000] = (leBytes 4 2 ++ leBytes 4 2147483647, 1)
      ∧ maxReport [0x41400000, 0] = 3 := by decide +kernel

theorem witness_SendEngine_complete :
    (let x : SendRun := { words := [0, 0, 0, 0, 0, 0, 0, ownWord 0x208 + 9 * 2 ^ 52] };
      let s := ready.setSplice 11 { send := some x, sendDone := 3 };
      s.settled ∧ s.live ∧ s.bankFinds = [] ∧ sendDue s 11 ∧ bits (nth 0 x.words 7) 63 52 = 9
        ∧ signalWord s 70 (bits (nth 0 x.words 7) 51 0) 9 0x208
        ∧ barrier s ⟨.sender 11, localOf (bits (nth 0 x.words 7) 51 0), .ack (.sender 11), devOf (bits (nth 0 x.words 7) 51 0)⟩
          (.sync (.add 9)) = .clear
        ∧ out (.sendComplete 11) s (fun t => t.splice 11 = { sendDone := 4 } ∧ t.mem.read (sramAddr 70 0x208) 1 = [9#8]))
    ∧ (let s := ready.setSplice 11 { send := some { words := [], err := evFabTimeout } };
      sendDue s 11 ∧ out (.sendComplete 11) s (fun t => t.splice 11 = { sendDone := 1, sendErr := evFabTimeout })) := by
  unfold signalWord unwatched; decide +kernel

theorem witness_AuxiliaryCommands_sketch :
    let s := auxIs [1 + 3 * 2 ^ 32, sramAddr 70 0x1000, 0, 16 + 16 * 2 ^ 24, 12345, 0, 0, 0];
    let w := (chunks 7 8 (s.mem.read (sramAddr 70 0x500) 64)).map leNat;
    let v := word (sramAddr 70 0x500);
    s.settled ∧ s.live ∧ s.bankFinds = [] ∧ (s.splice 11).auxQueue = [] ∧ mayWrite s tmp (.spl 11) 0x148 v.toNat
      ∧ bits v.toNat 39 0 = sramAddr 70 0x500 ∧ sramAddr 70 0x500 % 64 = 0 ∧ (s.splice 11).auxRun = none
      ∧ homeOf s (sramAddr 70 0x500) = .sram 70 (sramAddr 70 0x500)
      ∧ barrier s ⟨.aux 11, sramAddr 70 0x500, .none, 0xFFF⟩ (.load 64 false) = .clear
      ∧ auxOp s v = 1 ∧ bits (nth 0 w 0) 3 0 = 1 ∧ ¬ auxBad w
      ∧ (∀ p ∈ sketchTiles w, isMirrored s p.1 256 = false ∧ homeOf s p.1 = .sram 70 p.1
        ∧ barrier s ⟨.aux 11, p.1, .ack (.aux 11), 0xFFF⟩ (.store p.2) = .clear)
      ∧ (sketchTiles w).map (fun p => (p.1, p.2.length, p.2.drop 255))
        = [(sramAddr 70 0x1000, 256, [sketchElem 12345 3 0 16 15 15])] := by
  unfold mayWrite mayStore; decide +kernel

theorem witness_AuxiliaryCommands_mask :
    (let s := auxIs [2, sramAddr 70 0x1000, sramAddr 70 0x600, 2, 0, 0, 0, 0];
      let w := (chunks 7 8 (s.mem.read (sramAddr 70 0x500) 64)).map leNat;
      let v := word (sramAddr 70 0x500);
      mayWrite s tmp (.spl 11) 0x148 v.toNat ∧ auxOp s v = 2 ∧ bits (nth 0 w 0) 3 0 = 2 ∧ ¬ auxBad w
        ∧ homeOf s (sramAddr 70 0x600) = .sram 70 (sramAddr 70 0x600) ∧ isMirrored s (sramAddr 70 0x1000) 128 = false
        ∧ barrier s ⟨.aux 11, sramAddr 70 0x600, .none, 0xFFF⟩ (.load 1 false) = .clear
        ∧ barrier s ⟨.aux 11, sramAddr 70 0x1000, .ack (.aux 11), 0xFFF⟩ (.store (planeOf 2 2)) = .clear
        ∧ out (.maskExpand tmp 11 v) s (fun t => t.mem.read (sramAddr 70 0x103F) 2 = [0#8, 1#8]
          ∧ (t.splice 11).auxRun = some { words := w }))
    ∧ (let s := auxIs [2, sramAddr 70 0x1008, 0, 2, 0, 0, 0, 0];
      let w := (chunks 7 8 (s.mem.read (sramAddr 70 0x500) 64)).map leNat;
      let v := word (sramAddr 70 0x500);
      mayWrite s tmp (.spl 11) 0x148 v.toNat ∧ auxOp s v = 2 ∧ auxBad w
        ∧ out (.maskExpand tmp 11 v) s (fun t => (t.splice 11).auxRun = none
          ∧ (t.evt.inputs.flatMap id).map (·.code) = [evSpliceFormat])) := by
  unfold mayWrite mayStore; decide +kernel

theorem witness_AuxiliaryCommands_complete :
    let x : AuxRun := { words := [0, 0, 0, 0, 0, ownWord 0x208 + 9 * 2 ^ 52] };
    let s := ready.setSplice 11 { auxRun := some x };
    s.settled ∧ s.live ∧ s.bankFinds = [] ∧ s.owes (· == .aux 11) = false ∧ bits (nth 0 x.words 5) 63 52 = 9
      ∧ signalWord s 70 (bits (nth 0 x.words 5) 51 0) 9 0x208
      ∧ barrier s ⟨.aux 11, localOf (bits (nth 0 x.words 5) 51 0), .signal, devOf (bits (nth 0 x.words 5) 51 0)⟩
        (.sync (.add 9)) = .clear
      ∧ out (.auxCommandComplete 11) s (fun t => t.splice 11 = {} ∧ t.mem.read (sramAddr 70 0x208) 1 = [9#8])
      ∧ (let u := ready.setSplice 11 { auxRun := some { x with bad := true } };
        u.owes (· == .aux 11) = false
          ∧ out (.auxCommandComplete 11) u (fun t => t.splice 11 = {} ∧ t.mem = u.mem)) := by
  unfold signalWord unwatched; decide +kernel

/-- A device whose Ethernet link is up, with MAC address 0x0A1B2C3D4E5F, IPv4 address 10.0.0.5 and an IPv6 address; and a frame
for it from 10.0.0.9. -/
def onEthernet (e : Eth) : State :=
  { ready with eth := { e with link := 3, mac := 0x0A1B2C3D4E5F, ipv4 := 0x0A000005, ipv6 := 0xFE80 * 2 ^ 112 + 5 } }
def fromHost : Frame :=
  { srcMac := 0x020304050607, dstMac := 0x0A1B2C3D4E5F, vlan := none, len := 100, v6 := false, srcIp := 0x0A000009,
    dstIp := 0x0A000005, srcPort := 7777, fragment := false, ce := false }

/-- The same with queue pair 511 ready, and a region in which it may do everything in core 70's SRAM. -/
def paired (q : Qp) : State :=
  { onEthernet { qps := [(511, q)], regions := [(3, ⟨own 0, 0x40000, 0x155, 7, true⟩)] } with
    mem := Mem.write [] (sramAddr 70 0x208) (leBytes 8 77) }
def pairOf : Qp := { state := 2, remoteQpn := 99, psn := 0xFFFFFF, remoteIp := 0x0A000009, maxOut := 4 }

/-- A packet for it at an offset of core 70's SRAM. -/
def roceAt (off len : Nat) (data : List Byte) : RocePkt :=
  { rc := true, qpn := 513, psn := 0xFFFFFF, ackReq := true, seg := .only, va := own off, rkey := 3 * 2 ^ 26 + 0x155,
    len := len, swapAdd := 5, compare := 77, data := data }

/-! ## The host port -/

theorem witness_HostFramesAndRates_addresses :
    let s := onEthernet {};
    let g : Frame := { fromHost with dstMac := 0xFFFFFFFFFFFF };
    s.settled ∧ ethReady s ∧ macTakes s g 0xFFFFFFFFFFFF ∧ s.sec.state ≠ 6 ∧ s.eth.ipv4 = 0x0A000005
      ∧ out (.arp g 0x0A000005 0x0A000009 17) s (fun t => t.sent = [.arp 0x0A000005 0x0A1B2C3D4E5F 0x0A000009 17])
      ∧ 0x0A000006 ≠ s.eth.ipv4 ∧ out (.arp g 0x0A000006 0x0A000009 17) s (fun t => t.sent = [] ∧ t.eth.dropped = 1)
      ∧ (let target := 0xFE80 * 2 ^ 112 + 5;
        let n : Frame := { fromHost with v6 := true, dstMac := solicited target };
        macTakes s n (solicited target) ∧ ownIp s true target
          ∧ out (.neighbourSolicitation n target) s (fun t => t.sent = [.neighbour target 0x0A1B2C3D4E5F 0x0A000009])
          ∧ ¬ ownIp s true (target + 1)
          ∧ out (.neighbourSolicitation n (target + 1)) s (fun t => t.sent = [] ∧ t.eth.dropped = 1)) := by decide +kernel

theorem witness_HostFramesAndRates_pauses :
    let s := onEthernet { paused := [prioB ready, 9], txHeld := [⟨prioB ready, 4, .cnp 4⟩, ⟨9, 5, .cnp 5⟩] };
    s.settled ∧ ethReady s ∧ fromHost.len ≤ 9216 ∧ fromHost.dstMac = s.eth.mac
      ∧ [prioA s, 9].filter (fun p => p == prioA s || p == prioB s) = [prioA s] ∧ prioA s ≠ prioB s
      ∧ out (.pfcFrame fromHost [prioA s, 9] true) s (fun t => prioA s ∈ t.eth.paused ∧ prioB s ∈ t.eth.paused)
      ∧ out (.pfcFrame fromHost [prioB s] false) s (fun t => t.eth.paused = [9] ∧ t.eth.txHeld = [⟨9, 5, .cnp 5⟩]
        ∧ s.eth.ingressB = []
        ∧ t.sent = [.cnp 4])
      ∧ out .ethLinkDown s (fun t => t.eth.link = 0 ∧ t.eth.paused = [] ∧ t.eth.downs = 1
        ∧ (t.evt.inputs.flatMap id).map (·.code) = [evEthLinkDown])
      ∧ ethCanRise { s with eth := { s.eth with link := 1 } }
      ∧ out .ethLinkUp { s with eth := { s.eth with link := 1 } } (fun t => t.eth.link = 3
        ∧ (t.evt.inputs.flatMap id).map (·.code) = [evEthLinkUp]) := by decide +kernel

theorem witness_HostFramesAndRates_rates :
    (let s := paired pairOf;
      s.settled ∧ ethReady s ∧ roceContext s fromHost (roceAt 0 8 []) = (some 511, true) ∧ fromHost.ce = false
        ∧ out (.cnp fromHost (roceAt 0 8 [])) s (fun t => (t.qp 511).rt = 800000000 ∧ (t.qp 511).rc = 400000000
          ∧ (t.qp 511).cnpSeen ∧ (t.qp 511).timerAt = s.now))
    ∧ (let s := paired { pairOf with rc := 400000000, alpha := 32768, timerAt := 900000 };
      s.settled ∧ dcqcnTimerDue s 511 ∧ (s.qp 511).rc ≤ (s.qp 511).rt ∧ (s.qp 511).rt ≤ 800000000
        ∧ out (.dcqcnTimer 511) s (fun t => (t.qp 511).steps = 1 ∧ (t.qp 511).rc = 600000000
          ∧ (t.qp 511).alpha = 32768 - 32768 / 2 ^ s.field .roce 0x100 7 0))
    ∧ (let s := paired { pairOf with bytes := 0x100000000 };
      s.settled ∧ dcqcnBytesDue s 511 ∧ out (.dcqcnByteCounter 511) s (fun t => (t.qp 511).byteSteps = 1)) := by
  decide +kernel

theorem witness_RoceRequests_read :
    let p := roceAt 0x208 2 [];
    let s := paired pairOf;
    s.settled ∧ s.bankFinds = [] ∧ roceTurn s fromHost p 511 ∧ keyOk s p.va p.len p.rkey 0
      ∧ rwCheck s p.va p.len false = .serve ∧ p.va % 4096 + p.len ≤ 4096 ∧ remoteOf s p.va = none
      ∧ homeOf s (localOf p.va) = .sram 70 (sramAddr 70 0x208)
      ∧ barrier s ⟨.host (qpn 511), localOf p.va, .roce 511 p.psn 1, devOf p.va⟩ (.load p.len false) = .clear
      ∧ out (.rdmaRead fromHost p []) s (fun t => t.sent = [.readResponse 99 0xFFFFFF [77#8, 0#8]]
        ∧ (t.qp 511).psn = 0 ∧ (t.qp 511).bytes = 2)
      ∧ (let b := { p with rkey := 3 * 2 ^ 26 + 0x156 };
        roceTurn s fromHost b 511 ∧ ¬ keyOk s b.va b.len b.rkey 0
          ∧ out (.rdmaRead fromHost b []) s (fun t => t.sent = [.ack 99 0xFFFFFF 3] ∧ (t.qp 511).state = 3
            ∧ (t.evt.inputs.flatMap id).map (·.code) = [evRoceKeyBad, evRoceQpError]))
      ∧ (let b := { p with psn := ((s.qp 511).psn + 3) % 2 ^ 24 };
        (s.qp 511).nakSent = false
          ∧ out (.rdmaRead fromHost b []) s (fun t => t.sent = [.ack 99 0xFFFFFF 1] ∧ (t.qp 511).nakSent)) := by
  unfold roceTurn; decide +kernel

theorem witness_RoceRequests_write :
    let p := roceAt 0x20A 3 [1#8, 2#8, 3#8];
    let s := paired pairOf;
    roceTurn s fromHost p 511 ∧ p.seg = .only ∧ p.data.length = p.len ∧ keyOk s p.va p.len p.rkey 1
      ∧ rwCheck s p.va p.len true = .serve ∧ p.va % 4096 + p.len ≤ 4096 ∧ remoteOf s p.va = none
      ∧ homeOf s (localOf p.va) = .sram 70 (sramAddr 70 0x20A) ∧ roceRow (localOf p.va) = .memory
      ∧ unwatched s (localOf p.va) p.len
      ∧ barrier s ⟨.host (qpn 511), localOf p.va, .roce 511 p.psn 0, devOf p.va⟩ (.store p.data) = .clear
      ∧ out (.rdmaWrite fromHost p) s (fun t => t.sent = [.ack 99 0xFFFFFF 0]
        ∧ t.mem.read (sramAddr 70 0x208) 6 = [77#8, 0#8, 1#8, 2#8, 3#8, 0#8])
      ∧ out (.send fromHost p) s (fun t => t.sent = [.ack 99 0xFFFFFF 2] ∧ (t.qp 511).state = 3)
      ∧ out (.rdmaWriteWithImmediate fromHost p) s (fun t => t.sent = [.ack 99 0xFFFFFF 2]
        ∧ (t.evt.inputs.flatMap id).map (·.code) = [evRoceOpBad, evRoceQpError]) := by
  unfold roceTurn unwatched; decide +kernel

theorem witness_RoceRequests_atomics :
    let p := roceAt 0x208 8 [];
    let s := paired pairOf;
    roceTurn s fromHost p 511 ∧ keyOk s p.va 8 p.rkey 2 ∧ p.va % 8 = 0 ∧ remoteOf s p.va = none
      ∧ roceRow (localOf p.va) = .memory ∧ homeOf s (localOf p.va) = .sram 70 (sramAddr 70 0x208)
      ∧ unwatched s (localOf p.va) 8 ∧ leNat (s.mem.read (localOf p.va) 8) = 77
      ∧ (∀ acc ∈ [Acc.fetchAdd p.swapAdd, .cmpSwap p.compare p.swapAdd],
        barrier s ⟨.host (qpn 511), localOf p.va, .roce 511 p.psn 2, devOf p.va⟩ acc = .clear)
      ∧ out (.atomicFetchAdd fromHost p []) s (fun t => t.sent = [.atomicResponse 99 0xFFFFFF 77]
        ∧ t.mem.read (sramAddr 70 0x208) 2 = [82#8, 0#8] ∧ (t.qp 511).atomics = [(0xFFFFFF, 77)])
      ∧ out (.atomicCmpSwap fromHost p []) s (fun t => t.sent = [.atomicResponse 99 0xFFFFFF 77]
        ∧ t.mem.read (sramAddr 70 0x208) 2 = [5#8, 0#8])
      ∧ out (.atomicCmpSwap fromHost { p with compare := 78 } []) s (fun t => t.mem = s.mem
        ∧ t.sent = [.atomicResponse 99 0xFFFFFF 77]) := by
  unfold roceTurn unwatched; decide +kernel

/-- A firmware image of version 1.2.3 and SVN 3: its header, whose signature was made outside this package with an arbitrary
key, and its body, the bytes 0 to 63. -/
def imageHeader : List Byte :=
  leBytes 32 0x000000f00010000000000000000000400003000300020001000000010d100f17
    ++ leBytes 32 0x91a8222e14b52015badbeb5cdb1d8d07ae7a156d236f5693000000f000100000
    ++ leBytes 32 0x07fc3318ad9f1772c6c54b1e167ddd50a121541e31dff909631daea25b346455
    ++ leBytes 32 0x4a085ef3fb05ed0a60aac18c71eac62da57567e20c49eacc2050f356f38fb06b
    ++ leBytes 32 0x364f5d8d586440d4e56f70dedfa13edb12f3c603f17a443e13ada92d07f63266
    ++ leBytes 32 0xae45dd240ba4f011eedc617b11b847bb8f10001d412285a4a0f523bbb5a6e726
    ++ leBytes 32 0x000000000000000000000000000000000000000000000000622e02f2ea855900
    ++ leBytes 32 0x0000000000000000000000000000000000000000000000000000000000000000

/-- The hash of its signer's key, and the image in slot A. -/
def signerHash : List Byte := beBytes 32 0x3d92bed6d685f38bff5ccd052119e1ecc071c2f3d915245c8d9c5a2cb131a89d
def imageA : Mem :=
  ((upto 320).zip (imageHeader ++ (upto 64).map fun i => BitVec.ofNat 8 i)).filter fun c => c.2 != 0#8

/-- A TMP message with SEQ 9. -/
def tmpMsg (code : Nat) (payload : List Byte) : List Byte :=
  leBytes 2 0x4D54 ++ leBytes 1 1 ++ leBytes 1 code ++ leBytes 4 9 ++ leBytes 2 payload.length ++ leBytes 6 0 ++ payload

/-- The code, SEQ, status and index of the TMP responses sent. -/
def tmpSent (t : State) : List (Nat × Nat × Nat × Nat) :=
  t.sent.filterMap fun m => match m with
    | .tmp _ _ r => some (r.opcode, r.seq, r.status, r.index)
    | _ => none

/-- The device on its network with a state of its firmware update, and with flash and fuses that hold imageA and its signer's key. -/
def updating (sec : Sec) : State := { onEthernet {} with sec := { sec with state := 4 } }
def holdsImage : State := { updating { svn := 3, keyHash := signerHash } with flash := imageA }

/-! ## TMP, firmware update, attestation -/

theorem test_sm3_of_the_standard :
    sm3 (ascii "abc") = beBytes 32 0x66c7f0f462eeedd9d1f2d46bdc10e4e24167c4875cf2f7a2297da02b8f4ba8e0 := by decide +kernel

/-- The signature of imageA verifies, and its digest is that of its body. -/
theorem test_image_verifies : checkImage imageA 0 false 3 signerHash = 0 := by decide +kernel

theorem witness_StartSteps_verified :
    let s := { State.reset with flash := imageA, sec := { State.reset.sec with svn := 3, keyHash := signerHash } };
    s.sec.state = 1 ∧ s.sec.inReset = false ∧ s.sec.slot = 0 ∧ 0 ∉ s.sec.failSlots
      ∧ checkImage s.flash s.sec.slot false s.sec.svn s.sec.keyHash = 0 :=
  ⟨rfl, rfl, rfl, by decide, test_image_verifies⟩

theorem witness_TmpRequests_registers :
    let s := onEthernet {};
    let a := pageBase (.stk 11) + 0x128;
    let m := tmpMsg 1 (leBytes 8 (a + 8 * 2 ^ 40));
    s.settled ∧ s.live ∧ (regDef (.stk 11) 0x128).isSome ∧ tmpServed s fromHost m 0x01 ∧ tmpEntriesOk m false
      ∧ tmpEntries m false = [(a, 8, 0)] ∧ coilHole (.stk 11) 0x128 = false ∧ coilDataOf (.stk 11) 0x128 = none
      ∧ freeCounter (.stk 11) 0x128 = false
      ∧ barrier s ⟨.tmp fromHost.srcIp fromHost.srcPort, a, .tmpEntry s.eth.nextRun, 0xFFF⟩ (.load 8 false) = .clear
      ∧ out (.regRead fromHost m) s (fun t => t.sent = [.tmp 0x0A000009 7777
          ⟨0x81, 9, 0, 0, .bytes (leBytes 8 (s.reg (.stk 11) 0x128))⟩] ∧ t.eth.runs = []) := by
  unfold tmpServed; decide +kernel

theorem witness_TmpRequests_register_writes :
    let s := onEthernet {};
    let a := pageBase (.stk 11) + 0x128;
    let w := tmpMsg 2 (leBytes 8 (a + 8 * 2 ^ 40) ++ leBytes 8 0xABCD);
    tmpServed s fromHost w 0x02 ∧ tmpEntriesOk w true ∧ tmpEntries w true = [(a, 8, 0xABCD)]
      ∧ (regDef (.stk 11) 0x128).map (fun d => (d.rw, d.wo, d.rwb == 0)) = some (0, 0, false)
      ∧ barrier s ⟨.tmp fromHost.srcIp fromHost.srcPort, a, .tmpEntry s.eth.nextRun, 0xFFF⟩ (.store (leBytes 8 0xABCD)) = .clear
      ∧ out (.regWrite fromHost w) s (fun t => tmpSent t = [(0x82, 9, 0, 0)]
        ∧ (t.pendOf (.stk 11) 0x128).val = 0xABCD ∧ t.reg (.stk 11) 0x128 = s.reg (.stk 11) 0x128)
      ∧ (let b := tmpMsg 1 (leBytes 8 (sramAddr 70 0 + 8 * 2 ^ 40));
        tmpServed s fromHost b 0x01 ∧ tmpEntriesOk b false ∧ tmpEntries b false = [(sramAddr 70 0, 8, 0)]
          ∧ homeOf s (sramAddr 70 0) = .sram 70 (sramAddr 70 0)
          ∧ out (.regRead fromHost b) s (fun t => tmpSent t = [(0x81, 9, evAddrUnmapped, 0)])) := by
  unfold tmpServed; decide +kernel

theorem witness_TmpRequests_tables :
    let s := { onEthernet { qps := [(511, pairOf)] } with now := 5 };
    let x : QpArgs := ⟨511, 2, 3, 0xFFFFFF, false, 0x0A000009, 7, 1024, 63, 7, 32⟩;
    let r : RegionArgs := ⟨63, own 0, 0x40000, 0x3FFFFFF, 7, true⟩;
    let d : DestArgs := ⟨true, 5, 6, 7, true⟩;
    s.settled ∧ tmpServed s fromHost (tmpMsg 3 []) 0x03 ∧ qpArgsOk x ∧ (s.qp 511).serving = none ∧ (s.qp 511).waiting = []
      ∧ out (.qpSet fromHost (tmpMsg 3 []) x) s (fun t => contextArgs 511 (t.qp 511) = x ∧ tmpSent t = [(0x83, 9, 0, 0)])
      ∧ qpArgsOk { x with state := 0 }
      ∧ out (.qpSet fromHost (tmpMsg 3 []) { x with state := 0 }) s (fun t => (t.qp 511).psn = 0 ∧ (t.qp 511).timerAt = 5)
      ∧ tmpServed s fromHost (tmpMsg 4 []) 0x04
      ∧ out (.qpQuery fromHost (tmpMsg 4 []) 511) s (fun t =>
        t.sent = [.tmp 0x0A000009 7777 ⟨0x84, 9, 0, 0, .context (contextArgs 511 pairOf)⟩])
      ∧ tmpServed s fromHost (tmpMsg 5 []) 0x05 ∧ regionArgsOk r
      ∧ out (.regionSet fromHost (tmpMsg 5 []) r) s (fun t => t.eth.regions = [(63, ⟨own 0, 0x40000, 0x3FFFFFF, 7, true⟩)])
      ∧ tmpServed s fromHost (tmpMsg 6 []) 0x06
      ∧ out (.eventDest fromHost (tmpMsg 6 []) d) s (fun t => t.eth.destIp = 5 ∧ t.eth.destV6 ∧ t.eth.destEn) := by
  unfold tmpServed; decide +kernel

theorem witness_FirmwareUpdate_begin :
    let m := tmpMsg 0x10 (leBytes 1 0 ++ leBytes 4 0x1000);
    let s := updating { slotInfo := [(1, 0, 0, 0)] };
    s.settled ∧ tmpServed s fromHost m 0x10 ∧ fwBeginOk m ∧ msgField m 16 1 = 0 ∧ s.sec.fwState = 0 ∧ slotVerified s 1
      ∧ out (.fwBegin fromHost m) s (fun t => t.sec.fwState = 1 ∧ t.sec.fwSize = 0x1000 ∧ tmpSent t = [(0x90, 9, 0, 0)])
      ∧ tmpServed (updating {}) fromHost m 0x10 ∧ ¬ slotVerified (updating {}) 1
      ∧ out (.fwBegin fromHost m) (updating {}) (fun t => t.sec.fwState = 0 ∧ tmpSent t = [(0x90, 9, evFwUpdateBad, 10)]
        ∧ (t.evt.inputs.flatMap id).map (·.code) = [evFwUpdateBad]) := by unfold tmpServed; decide +kernel

theorem witness_FirmwareUpdate_receive :
    (let s := { updating { fwState := 1, fwSlot := 1 } with flash := [(7, 1#8), (0x1800000, 2#8), (0x3000000, 3#8)] };
      ethReady s ∧ s.sec.fwState = 1
        ∧ out .eraseComplete s (fun t => t.sec.fwState = 2 ∧ t.flash = [(7, 1#8), (0x3000000, 3#8)]))
    ∧ (let m := tmpMsg 0x11 (leBytes 4 8 ++ leBytes 4 0 ++ (upto 8).map fun i => BitVec.ofNat 8 (i + 1));
      let s := updating { fwState := 2, fwSlot := 1, fwSize := 16, fwDone := [(0, 8)], fwBytes := 8 };
      tmpServed s fromHost m 0x11 ∧ fwChunkOk m ∧ msgField m 16 4 = 8 ∧ 8 + (m.drop 24).length ≤ s.sec.fwSize
        ∧ (∀ i ∈ upto 16, 8 ≤ i → fwProgrammed s i = false)
        ∧ out (.fwChunk fromHost m) s (fun t => t.flash.read 0x1800008 2 = [1#8, 2#8] ∧ t.sec.fwBytes = 16
          ∧ tmpSent t = [(0x91, 9, 0, 0)]))
    ∧ (tmpServed (updating { fwCause := 7 }) fromHost (tmpMsg 0x13 []) 0x13 ∧ (tmpMsg 0x13 []).length = 16
      ∧ out (.fwStatus fromHost (tmpMsg 0x13 [])) (updating { fwCause := 7 }) (fun t => tmpSent t = [(0x93, 9, 0, 0)])) := by
  unfold tmpServed; decide +kernel

theorem witness_FirmwareUpdate_commit :
    let m := tmpMsg 0x12 [0#8, 1#8];
    tmpServed holdsImage fromHost m 0x12 ∧ fwCommitOk m ∧ msgField m 16 1 = 0 ∧ bit (msgField m 17 1) 1 = false
      ∧ tmpServed (updating {}) fromHost m 0x12
      ∧ checkImage (updating {}).flash 0 false (updating {}).sec.svn (updating {}).sec.keyHash = 2
      ∧ out (.fwCommit fromHost m) (updating {}) (fun t => t.sec.fwState = 5 ∧ tmpSent t = [(0x92, 9, evFwUpdateBad, 2)]) := by
  unfold tmpServed; decide +kernel

theorem witness_FirmwareUpdate_commit_verified :
    checkImage holdsImage.flash 0 false holdsImage.sec.svn holdsImage.sec.keyHash = 0 := test_image_verifies

theorem witness_AttestationAndRefusals_attest :
    let m := tmpMsg 0x20 (List.replicate 32 5#8);
    let s := updating { idOk := true };
    s.settled ∧ tmpServed s fromHost m 0x20 ∧ m.length = 48
      ∧ out (.attest fromHost m) s (fun t => t.sec.quote.map (fun q => (q.1, q.2.2.1)) = some (0x0A000009, 9))
      ∧ (let u := updating { idOk := true, quote := some (1, 2, 3, [], 4) };
        tmpServed u fromHost m 0x20 ∧ u.live ∧ u.eth.link = 3 ∧ prioB u ∉ u.eth.paused
          ∧ out (.attest fromHost m) u (fun t => t.sec.attests.length = 1 ∧ t.sec.quote.map (·.1) = some 1))
      ∧ (let u := updating { idOk := false };
        tmpServed u fromHost m 0x20
          ∧ out (.attest fromHost m) u (fun t => tmpSent t = [(0xA0, 9, evSecIdentBad, 0)] ∧ t.sec.quote = none)
          ∧ tmpServed u fromHost (tmpMsg 0x21 []) 0x21 ∧ (tmpMsg 0x21 []).length = 16
          ∧ out (.identity fromHost (tmpMsg 0x21 [])) u (fun t => t.sent = [.tmp 0x0A000009 7777 ⟨0xA1, 9, 0, 0,
            .identity 0x0D10 u.sec.baseStep u.sec.metalStep u.sec.fwVer 0xFFF []⟩])) := by
  unfold tmpServed; decide +kernel

theorem witness_AttestationAndRefusals_refused :
    let m := tmpMsg 0x13 [];
    let s := onEthernet {};
    let u := s.setReg .eth 0x120 0x10000;
    s.settled ∧ ethReady s ∧ msgField m 3 1 = 0x13 ∧ ipTakes s fromHost
      ∧ ¬ tmpAllowed u fromHost ∧ ipTakes u fromHost ∧ u.eth.deniedWindow ≠ denialWindow u
      ∧ out (.fwStatus fromHost m) u (fun t => t.sent = [] ∧ t.eth.denied = 1
        ∧ (t.evt.inputs.flatMap id).map (·.code) = [evTmpDenied])
      ∧ (let v := { u with eth := { u.eth with deniedWindow := denialWindow u } };
        ¬ tmpAllowed v fromHost ∧ out (.fwStatus fromHost m) v (fun t => t.eth.denied = 1 ∧ t.evt = v.evt))
      ∧ tmpAllowed s fromHost ∧ tmpKept s 0x0A000009 7777 9 = none ∧ tmpBusy s 0x0A000009 7777 9 = false
      ∧ msgField (tmpMsg 0x13 [0#8]) 3 1 = 0x13 ∧ (tmpMsg 0x13 [0#8]).length ≠ 16
      ∧ out (.fwStatus fromHost (tmpMsg 0x13 [0#8])) s (fun t => tmpSent t = [(0x93, 9, evTmpFormat, 0)]
        ∧ (t.evt.inputs.flatMap id).map (·.code) = [evTmpFormat])
      ∧ (let k := onEthernet { kept := [(0x0A000009, 7777, 9, ⟨0x81, 9, 0x123, 4, .bytes []⟩)] };
        tmpAllowed k fromHost ∧ (tmpKept k 0x0A000009 7777 9).isSome
          ∧ prioB k ∉ k.eth.paused ∧ out (.fwStatus fromHost m) k (fun t => tmpSent t = [(0x81, 9, 0x123, 4)]))
      ∧ (let k := onEthernet { paused := [prioB ready] };
        prioB k ∈ k.eth.paused ∧ ingressBytesB k + fromHost.len ≤ 0x100000
          ∧ out (.fwStatus fromHost m) k (fun t => t.eth.ingressB = [(.fwStatus, fromHost, m)] ∧ t.sent = []))
      ∧ s.powered ∧ s.eth.deniedWindow ≠ denialWindow s
      ∧ out .tmpDenialWindow { s with eth := { s.eth with deniedWindow := 3 } } (fun t => t.eth.deniedWindow = 0) := by
  decide +kernel

/-- A request of a TMP client for the first byte of stack 11. -/
def hbmReqOk : Req := ⟨tmp, 0xB000000000, .none, 0xFFF⟩

/-- The answer is a next state of which p holds. -/
def comesTo (o : Out) (p : State → Bool) : Bool :=
  match o with
  | .next t => p t
  | _ => false

/-! ## Waits of the other engines -/

theorem witness_MatrixRecordEnds_waits :
    (let w := chainRec 1 [sramStream 0x100, 0, 0, 0, sramStream 0x200] (wait := ownWord 0x208) (thr := 1) (w0 := 16);
      let s := { coreIs 70 { vec := { staged := some w } } with now := 10000000 };
      s.settled ∧ s.live ∧ vxWaitOverdue s 70 ∧ out (.syncWaitTimeout 70 .vector) s (fun t =>
        (t.core 70).vec.late ∧ (t.evt.inputs.flatMap id).map (·.code) = [evSyncWaitTimeout]))
    ∧ (let s := { ctxIs { running 4 0 with state := 3 } with now := 10000000 };
      s.settled ∧ s.live ∧ strandWaitOverdue s 70 7
        ∧ out (.syncWaitTimeout 70 (.strand 7)) s (fun t => (t.ctx 70 7).late
          ∧ (t.evt.inputs.flatMap id).map (·.code) = [evSyncWaitTimeout])) := by decide +kernel

/-! ## The machine as a whole -/

theorem witness_StepRunsFrontCommand :
    comesTo (step { ready with pending := [.calibration 11 31, .pwrGood] })
        (fun t => (t.stack 11).maint = some (.calibration, 31) ∧ t.pending = [.pwrGood])
      ∧ comesTo (step ready) (fun t => t = { ready with
          now := 1000001, module := { ready.module with time := ready.module.time + 1 }, eth := { ready.eth with link := 1 } })
      ∧ comesTo (step { ready with knotIn := [.cmd 0x100] }) (fun t => t.knotIn = [] ∧ t.now = 1000001) := by decide +kernel

theorem witness_QueueRunsToItsEnd :
    let s := { ready with pending := [.calibration 11 31, .calibrationComplete 11] };
    .pwrGood ∉ s.pending ∧ comesTo (Host.Core.run core 3 s) (fun t =>
      t.pending = [] ∧ (State.stack t 11).maint = none ∧ t.now = 1000001) := by decide +kernel

/-- A state that holds memory and a tag, with a command in front. -/
def holdsTag : State :=
  { tagged { tag := 7, words := tagWords } with mem := [(5, 1#8)], pending := [.zeroingComplete 11 7] }

theorem witness_InvariantKept : holdsTag.inv := by
  refine ⟨by decide +kernel, by decide +kernel, by decide +kernel, by decide +kernel, fun k x hx => ?_, nofun⟩
  by_cases h : k = 11
  · subst h
    have e : (holdsTag.splice 11).tags = [{ tag := 7, words := tagWords }] := by decide +kernel
    rw [e, List.mem_singleton] at hx
    subst hx
    decide +kernel
  · have e : holdsTag.splice k = {} := by
      show aget {} k holdsTag.spl = {}
      have l : holdsTag.spl = [(11, holdsTag.splice 11)] := by decide +kernel
      rw [l]
      simp [aget, alookup, Ne.symm h]
    rw [e] at hx
    cases hx

theorem witness_InvariantKept_step :
    comesTo (step holdsTag) (fun t => t.mem.wf && (t.sec.state == 4) && ((t.splice 11).tags.map (·.state) == [2])) := by
  decide +kernel

theorem witness_MemoryIsItsBytes :
    let m : Mem := [(5, 1#8), (9, 2#8)];
    m.wf = true ∧ m.write 8 [3#8, 0#8] = [(5, 1#8), (8, 3#8)] ∧ m.read 4 3 = [0#8, 1#8, 0#8] := by decide +kernel

theorem witness_HeaderRoundTrip :
    let p := mkPacket 0x04 true (some (-8388608)) 0xFFF 0xFFE 0xFFFFFFFFFF 4096 0xFFFF 0xFFFE 0xFFD true (2 ^ 64 - 1) [];
    pOpc p = 4 ∧ pVl p = 2 ∧ pTtd p = -8388608 ∧ pLen p = 4096 ∧ pDst p = 0xFFF ∧ pSrc p = 0xFFE ∧ pAux p = 0xFFD ∧ pCancel p
      ∧ (mkFlit 0xFFFF 0xFFFE [1#8]).length = 256 := by decide +kernel

/-- A header written out from the table of R303: a bulk READ of 8 bytes at address 0xC000000040 of device 5, from device 9. -/
theorem test_header_of_R303 :
    parseHeader (leBytes 8 (0x01 + 0x200 + 5 * 0x10000 + 9 * 0x10000000) ++ leBytes 8 (0xC000000040 + 7 * 2 ^ 40)
      ++ leBytes 8 7 ++ leBytes 8 0) = mkPacket 0x01 false none 5 9 0xC000000040 8 7 0 0 false 0 [] := by decide +kernel

theorem witness_RetiredStackUnmapped :
    let s := ready.setStack 11 { state := 2 };
    (s.stack 11).state = 2 ∧ homeOf s 0xBFFFFFFFFF = .hole ∧ homeOf s 0xCEC0000008 = .hole
      ∧ homeOf ready 0xB000000000 = .hbm 0xB000000000 := by decide +kernel

theorem witness_AccessErrors :
    let s := (ready.setStack 11 { state := 2 }).setCore 70 { stw := { st := .run, wait := .access 4 0xB000000000 5, csr := [(0x305, 0x400)] } };
    let q : Req := ⟨.steward 70, 0xB000000000, .toReg 70 5 8 true, 0xFFF⟩;
    s.settled ∧ s.live ∧ homeOf s q.addr = .hole ∧ barrier s q (.load 8 false) = .refused evAddrUnmapped q.addr
      ∧ (s.core 70).stw.stopping = false ∧ (s.core 70).stw.csrVal 0x305 ≠ 0
      ∧ out (.hbmRead q 8 .ordinary []) s (fun t => (t.core 70).stw.csrVal 0x7C1 = evAddrUnmapped
        ∧ (t.core 70).stw.pc = 0x400 ∧ (t.core 70).stw.csrVal 0x342 = 5)
      ∧ (let r : Req := ⟨.vector 70 0, pageBase (.stk 11) + 0x100, .none, 0xFFF⟩;
        homeOf s r.addr = .chip (some (.stk 11)) 0x100
          ∧ barrier s r (.load 8 false) = .refused evAddrProtected r.addr) := by decide +kernel

/-! ## Ill-formed commands -/

/-- One ill-formed term for each check, which the check refuses. -/
theorem test_ill_formed_parts :
    (PageId.fport 16).wf = false ∧ (PageId.stk 12).wf = false ∧ (PageId.core 10240).wf = false
      ∧ (Issuer.strand 3 8 0).wf = false ∧ (Issuer.host 1).wf = false ∧ (Issuer.warden 2).wf = false
      ∧ (Issuer.device 4096 0).wf = false ∧ (Issuer.device 9 16).wf = false ∧ (Issuer.tmp 0 65536).wf = false
        ∧ (Issuer.splice 3 4096).wf = false
      ∧ (⟨tmp, 2 ^ 40, .none, 0xFFF⟩ : Req).wf = false ∧ (⟨tmp, 0, .none, 4096⟩ : Req).wf = false
      ∧ Frame.wf { fromHost with vlan := some 4096 } = false ∧ RocePkt.wf { roceAt 0 8 [] with psn := 2 ^ 24 } = false
      ∧ (Waiter.strand 8).wf = false := by decide +kernel

theorem test_ill_formed_commands :
    (Instr.stewardInstruction 10240 []).wf = false ∧ (Instr.push tmp 3 3 8 0).wf = false ∧ (Instr.push tmp 3 2 5 0).wf = false
      ∧ (Instr.strandStart 3 8).wf = false ∧ (Instr.commit tmp 3 2).wf = false ∧ (Instr.commit tmp 3 16).wf = false
      ∧ (Instr.knotCancel tmp 64).wf = false ∧ (Instr.hallCancel tmp 16).wf = false
      ∧ (Instr.hbmRead hbmReqOk 0 .ordinary []).wf = false ∧ (Instr.hbmRead hbmReqOk 4097 .ordinary []).wf = false
      ∧ (Instr.hbmWrite hbmReqOk [1#8] .last []).wf = false ∧ (Instr.calibration 11 32).wf = false
      ∧ (Instr.hbmRead hbmReqOk 4096 .ordinary []).wf = true ∧ (Instr.push tmp 10239 2 8 0).wf = true := by
  unfold hbmReqOk; decide +kernel

end Sys2Proof.Tests
end

section
/-! Chapter 1, the architecture: which cores a polder holds (R15), and which HBM addresses are unmapped (R25). -/

namespace Sys2Proof.Machine

/-! ## Polders and their cores (R15) -/

theorem polderOf_eq_iff (c p : Nat) : polderOf c = p ↔ 64 * p ≤ c ∧ c ≤ 64 * p + 63 := by
  unfold polderOf
  omega

/-- A tile is 40 rows of 64 cores, so the row of a core is its polder. -/
theorem polderOf_tile_row_col {tile row col : Nat} (hcol : col < 64) :
    polderOf (2560 * tile + 64 * row + col) = tile * 40 + row := by
  rw [polderOf_eq_iff]; omega

theorem polderOf_lt {c : Nat} (hc : c < 10240) : polderOf c < 160 := by
  obtain ⟨low, -⟩ := (polderOf_eq_iff c _).mp rfl
  omega

/-- Settles O57: the cores of a polder are an interval, in which the tile, row and column of a core place it. -/
theorem polderHoldsItsCores : Obligations.PolderHoldsItsCores :=
  ⟨fun _ _ _ _ _ hcol => polderOf_tile_row_col hcol, fun _ hc => polderOf_lt hc, polderOf_eq_iff⟩

/-! ## Stacks in service and the homes of HBM addresses (R23, R25) -/

theorem stackUp_of_retired {s : State} {k : Nat} (h : (s.stack k).state = 2) : s.stackUp k = false := by
  simp [State.stackUp, h]

/-- Whether stacks are in service is told by their state and their cache command alone, not by a retired or migrating
pseudo-channel. -/
theorem stackUp_setStack_outPc (s : State) (k : Nat) (pc : Option Nat) :
    (s.setStack k { s.stack k with outPc := pc }).stackUp = s.stackUp := by
  funext j
  by_cases h : j = k
  · subst h
    simp only [State.stackUp, setStack_self]
  · simp only [State.stackUp, setStack_other s h]

/-- The stacks enter the decode of an address only by which of them are in service. -/
theorem homeOf_congr_stackUp {s t : State} (h : s.stackUp = t.stackUp) (a : Nat) : homeOf s a = homeOf t a := by
  unfold homeOf hbmUsable
  rw [h]

/-- An address in the data range of a stack that is out of service has no home. -/
theorem homeOf_hbm_of_not_stackUp {s : State} {k o : Nat} (hk : k < 12) (ho : o < 0x1000000000)
    (down : s.stackUp k = false) : homeOf s (k * 0x1000000000 + o) = .hole := by
  have stack : (k * 0x1000000000 + o) / 0x1000000000 = k := by omega
  have unusable : hbmUsable s (k * 0x1000000000 + o) = false := by simp [hbmUsable, stack, down]
  unfold homeOf
  rw [if_pos (by omega), unusable]
  rfl

/-- An address in the sync alias of a stack that is out of service has no home. -/
theorem homeOf_alias_of_not_stackUp {s : State} {k o : Nat} (hk : k < 12) (ho : o < 0x40000000)
    (down : s.stackUp k = false) : homeOf s (0xCC00000000 + k * 0x40000000 + o) = .hole := by
  have stack : (0xCC00000000 + k * 0x40000000 + o - 0xCC00000000) / 0x40000000 = k := by omega
  unfold homeOf
  repeat rw [if_neg (by omega)]
  rw [if_pos (by omega)]
  simp only [stack, down, Bool.false_eq_true, and_false, if_false]

/-- Every issuer reaches a hole, and is told there that the address is unmapped (R26). -/
theorem barrier_hole {s : State} {q : Req} (h : homeOf s q.addr = .hole) (acc : Acc) :
    barrier s q acc = .refused evAddrUnmapped q.addr := by
  have reached : reaches s q.who .hole acc = true := rfl
  have hole : (Home.hole == Home.hole) = true := rfl
  simp only [barrier, h, reached, hole, Bool.not_true, Bool.true_or, Bool.false_eq_true, if_true, if_false]

/-- Settles O59: a retired stack is out of service, which leaves its data range and its sync alias without a home; a
retired pseudo-channel takes no stack out of service. -/
theorem retiredStackUnmapped : Obligations.RetiredStackUnmapped := by
  refine ⟨fun s q acc k o retired hk inside => ?_, fun s k pc a =>
    homeOf_congr_stackUp (stackUp_setStack_outPc s k (some pc)) a⟩
  have down := stackUp_of_retired retired
  have unmapped : homeOf s q.addr = .hole := by
    obtain ⟨addr, ho⟩ | ⟨addr, ho⟩ := inside
    · rw [addr]
      exact homeOf_hbm_of_not_stackUp hk ho down
    · rw [addr]
      exact homeOf_alias_of_not_stackUp hk ho down
  exact ⟨unmapped, barrier_hole unmapped acc⟩

end Sys2Proof.Machine
end

section
/-! Chapter 17, faults and events: when a raise is dropped, at its input and at the page limit (R462). -/

namespace Sys2Proof.Machine

/-! ## The input queues (R461, R462) -/

/-- A raise whose input is full is only counted. -/
theorem raiseEv_of_full {s : State} {p : PageId} (full : 256 ≤ (nth [] s.evt.inputs (collectorInput p)).length)
    (code detail : Nat) :
    raiseEv p code detail s = { s with evt := { s.evt with dropped := (s.evt.dropped + 1) % 2 ^ 32 } } :=
  if_pos full

/-- A raise whose input has room joins it, and changes nothing else. -/
theorem raiseEv_of_room {s : State} {p : PageId} (room : (nth [] s.evt.inputs (collectorInput p)).length < 256)
    (code detail : Nat) :
    raiseEv p code detail s = { s with evt := { s.evt with
      inputs := put s.evt.inputs (collectorInput p)
        (nth [] s.evt.inputs (collectorInput p) ++ [⟨p, code, s.now, detail⟩]) } } := by
  obtain ⟨e, raised⟩ := raiseEv_eq s p code detail
  have joined := raiseEv_evt s p code detail room
  rw [raised] at joined ⊢
  exact congrArg (fun x => { s with evt := x }) joined

/-! ## The limit window (R462, R414) -/

/-- Reading a map whose values have all been changed alike, the default with them. -/
theorem aget_map_snd {κ α β : Type} [DecidableEq κ] (f : α → β) (d : α) (k : κ) (l : List (κ × α)) :
    aget (f d) k (l.map fun p => (p.1, f p.2)) = f (aget d k l) := by
  induction l with
  | nil => rfl
  | cons x r ih =>
    obtain ⟨k', v⟩ := x
    by_cases h : k' = k
    · simp [aget, alookup, h]
    · simpa [aget, alookup, h] using ih

/-- A window that has ended leaves every page without records counted. -/
theorem page_rollLimits (s : State) (p : PageId) : (rollLimits s).page p =
    if s.evt.window < s.now / 100000 then { s.page p with evCount := [] } else s.page p := by
  unfold rollLimits
  split
  · exact aget_map_snd (fun g : Page => { g with evCount := [] }) {} p s.pages
  · rfl

/-- The records counted against a page in the window of now. -/
theorem evCount_rollLimits (s : State) (p : PageId) (n : Nat) : aget 0 n ((rollLimits s).page p).evCount =
    if s.evt.window < s.now / 100000 then 0 else aget 0 n (s.page p).evCount := by
  rw [page_rollLimits]
  split <;> rfl

@[simp] theorem field_rollLimits (s : State) (p : PageId) (off hi lo : Nat) :
    (rollLimits s).field p off hi lo = s.field p off hi lo := by
  have vals : ((rollLimits s).page p).vals = (s.page p).vals := by rw [page_rollLimits]; split <;> rfl
  simp only [State.field, State.reg, vals]

@[simp] theorem rollLimits_evt (s : State) :
    (rollLimits s).evt = { s.evt with window := max s.evt.window (s.now / 100000) } := by
  unfold rollLimits
  split
  next ended => rw [Nat.max_eq_right (Nat.le_of_lt ended)]
  next runs => rw [Nat.max_eq_left (Nat.not_lt.mp runs)]

/-! ## Logging the head of an input (R401, R460, R462) -/

/-- The page of a raise has logged PAGE_LIMIT records of its local event in the window, and a limit stands. -/
def pageAtLimit (r : Raise) (s : State) : Prop :=
  s.field .evt 0x100 15 0 ≠ 0 ∧ s.field .evt 0x100 15 0 ≤ aget 0 (localBit r.code) (s.page r.page).evCount

/-- The state in which input i has been served and keeps the raises q. -/
def inputServed (i : Nat) (q : List Raise) (s : State) : State :=
  { s with evt := { s.evt with inputs := put s.evt.inputs i q, pointer := (i + 1) % 5, loggedIn := some s.now } }

theorem logHead_of_cons {s : State} {i : Nat} {r : Raise} {q : List Raise} (head : nth [] s.evt.inputs i = r :: q) :
    logHead i s = logRaise r (inputServed i q s) := by
  simp only [logHead, head, inputServed]

/-- At the page limit a raise is only counted. -/
theorem logRaise_of_atLimit {r : Raise} {s : State} (h : pageAtLimit r s) :
    logRaise r s = { s with evt := { s.evt with dropped := (s.evt.dropped + 1) % 2 ^ 32 } } :=
  if_pos h

/-- Below the page limit a raise takes the next number and is counted against its page. -/
theorem logRaise_of_not_atLimit {r : Raise} {s : State} (h : ¬ pageAtLimit r s) :
    (logRaise r s).evt.next = s.evt.next + 1 ∧ (logRaise r s).evt.dropped = s.evt.dropped
      ∧ aget 0 (localBit r.code) ((logRaise r s).page r.page).evCount
        = aget 0 (localBit r.code) (s.page r.page).evCount + 1 := by
  unfold logRaise
  dsimp only
  split
  next reached => exact absurd reached h
  next =>
    refine ⟨rfl, rfl, ?_⟩
    change aget 0 (localBit r.code) ((s.setPage r.page _).page r.page).evCount = _
    rw [setPage_self, aget_aset_self]

@[simp] theorem logRaise_inputs (r : Raise) (s : State) : (logRaise r s).evt.inputs = s.evt.inputs := by
  unfold logRaise
  dsimp only
  split <;> rfl

/-! ## EVENT_LOG with one input to serve (R461, R462) -/

theorem exec_eventLog_of_one {s : State} {i : Nat} {r : Raise} {q : List Raise} (powered : s.powered)
    (served : servedInputs s = [i]) (head : nth [] s.evt.inputs i = r :: q) :
    exec .eventLog s = .next
      { logRaise r (inputServed i q (rollLimits s)) with now := s.now, pending := s.pending } := by
  have head' : nth [] (rollLimits s).evt.inputs i = r :: q := by rw [rollLimits_evt]; exact head
  rw [← logHead_of_cons head']
  simp only [exec, execEventLog, run, powered, served, each, List.foldl, if_true]

theorem inputServed_rolled_evt (s : State) (i : Nat) (q : List Raise) :
    (inputServed i q (rollLimits s)).evt.inputs = put s.evt.inputs i q
      ∧ (inputServed i q (rollLimits s)).evt.log = s.evt.log
      ∧ (inputServed i q (rollLimits s)).evt.next = s.evt.next
      ∧ (inputServed i q (rollLimits s)).evt.dropped = s.evt.dropped := by
  simp only [inputServed, rollLimits_evt, and_self]

/-- The limit is judged on the records of the window of now. -/
theorem pageAtLimit_rolled_iff (s : State) (r : Raise) (i : Nat) (q : List Raise) :
    pageAtLimit r (inputServed i q (rollLimits s)) ↔ s.field .evt 0x100 15 0 ≠ 0 ∧ s.field .evt 0x100 15 0 ≤
      if s.evt.window < s.now / 100000 then 0 else aget 0 (localBit r.code) (s.page r.page).evCount := by
  rw [← evCount_rollLimits, ← field_rollLimits s]
  rfl

/-- Settles O58: a raise meets the two limits one after the other, that of its input where it is raised and that of its
page where it is logged, and each drops it exactly where it is reached. -/
theorem raisesDropped : Obligations.RaisesDropped := by
  refine ⟨?_, ?_⟩
  · rintro p code detail s t rfl
    exact ⟨fun full => raiseEv_of_full full code detail, fun room => raiseEv_of_room room code detail⟩
  · rintro s i count limit r q powered served head rfl rfl
    have judged := pageAtLimit_rolled_iff s r i q
    obtain ⟨inputs, log, next, dropped⟩ := inputServed_rolled_evt s i q
    refine ⟨_, exec_eventLog_of_one powered served head, ?_, fun reached => ?_, fun below => ?_⟩
    · simp only [logRaise_inputs, inputs]
    · simp only [logRaise_of_atLimit (judged.mpr reached), log, next, dropped, and_self]
    · obtain ⟨numbered, undropped, counted⟩ := logRaise_of_not_atLimit (mt judged.mp below)
      exact ⟨numbered.trans (congrArg (· + 1) next), undropped.trans dropped,
        counted.trans (congrArg (· + 1) (evCount_rollLimits s r.page _))⟩

end Sys2Proof.Machine
end
